-- ==== Sys2Proof/Word.lean ====
section
/-! DEFINITION. Word widths of R4 and the plain names of places: tiles, queues, elements. -/
namespace Sys2Proof

/-- R4: byte, half, word, double, quad. -/
abbrev Byte := BitVec 8
abbrev Half := BitVec 16
abbrev W32 := BitVec 32
abbrev Dbl := BitVec 64
abbrev Quad := BitVec 128

/-- A general-register field of a control-stream word (R72). -/
abbrev Reg := BitVec 5

/-- The sixteen lanes of a token payload (R54). -/
abbrev Lanes := Vector W32 16

/-- A tile of a fabric die: die 0 to 7, index 0 to 319 under R96. -/
structure TileId where
  die : Nat
  tile : Nat
deriving DecidableEq, Repr

/-- A command queue (R201): the queue of a port tile, or context queue `n` of a top-level context. -/
inductive QueueId where
  | port (die : Nat) (port : Nat)
  | ctx (ctx : Nat) (n : Nat)
deriving DecidableEq, Repr

/-- The elements of one tile that take tokens (R60, R212). -/
inductive Element where
  | pipe
  | node
  | agen
deriving DecidableEq, Repr

/-- What a scrub looks at (R427). -/
inductive ScrubTarget where
  | bank (die bank granule : Nat)
  | slot (t : TileId) (slot granule : Nat)
  | shadow (t : TileId)
  | prompter (act : Nat)
  | hbm (granule : Nat)
deriving DecidableEq, Repr

/-- What a scrub finds in a granule (R427). -/
inductive ScrubFinding where
  | clean
  | correctable
  | uncorrectable
deriving DecidableEq, Repr

/-- R417, R420: a firmware image offered at the boot: its control die, its core (8 stands for the first stage of the application cores), and
its bytes, with the signature block at their end. -/
structure Firmware where
  die : Nat
  core : Nat
  bytes : List Byte
deriving DecidableEq, Repr

/-- What firmware's boot record names (R403, R434, R441, R442): the configuration rings of each fabric die (requests, answers), the verify
ring of each translator/loader core as (control die, core, address), the page rings of each control die (requests, answers), the
security log ring, and the power ring of each control die (R410). -/
structure BootRecord where
  config : List (Nat × Nat)
  verify : List (Nat × Nat × Nat)
  pages : List (Nat × Nat)
  log : Nat
  power : List Nat
deriving DecidableEq, Repr

/-- The translator's route for a channel (R248, R252, R253): the number of its link record, the tiles that carry its producer and its
consumer, each on its own region's die, and the way between them, a direction and a circuit number a hop (R57). -/
structure ChannelRoute where
  link : Nat
  src : Nat
  dst : Nat
  path : List (Nat × Nat)
deriving DecidableEq, Repr

/-- The scheduler's and translator's choices for one region of a launch (R251 to R253, R449): the
physical rectangle, the virtual address of its staging image, where the act's spans are mapped, its bell selection, the act
context, the scratch banks, the wing banks added, the initial tensor entries, and the routes of the channels that leave the region.
The choice is firmware's; the meaning checks it. -/
structure Placement where
  die : Nat
  x0 : Nat
  y0 : Nat
  w : Nat
  h : Nat
  image : Dbl
  entry : Dbl
  data : Dbl
  bsel : Bool
  slot : Nat
  banks : List Nat
  wings : List Nat
  tensors : List (Nat × List Byte)
  channels : List ChannelRoute
deriving DecidableEq, Repr

/-- The hypervisor's attributes of a partition (R365, R414, R379): `slotLen` counts steps of 62.5 µs, with 0 for no bell,
and `offset` and `gap` are in ns. -/
structure PartSpec where
  rects : List W32
  base : Nat
  length : Nat
  ring : Nat
  slotLen : Nat
  symbols : Nat
  offset : Nat
  gap : Nat
  stall : Nat
  status : Nat
deriving DecidableEq, Repr

end Sys2Proof
end

