-- ==== Sys2Proof/Syntax.lean ====
section
/-! DEFINITION. The instructions and events of the AH8: one constructor per row of spec/opcode_table.json,
in the table's order. The first 107 are control-stream words (R72 to R80), with their operand fields as the
encoding holds them; RFETCH, BFX, SWAIT and DISP are the Xalholt words of R395; the rest are the device's own
steps, whose operands name the element, queue, act or outside input they concern. -/
namespace Sys2Proof

inductive Instr where
  /-- ADD, R120. -/
  | add (d : Reg) (a : Reg) (b : Reg) (s : Bool) (w : Bool)
  /-- SUB, R120. -/
  | sub (d : Reg) (a : Reg) (b : Reg) (s : Bool) (w : Bool)
  /-- AND, R120. -/
  | and (d : Reg) (a : Reg) (b : Reg)
  /-- OR, R120. -/
  | or (d : Reg) (a : Reg) (b : Reg)
  /-- XOR, R120. -/
  | xor (d : Reg) (a : Reg) (b : Reg)
  /-- SHL, R120. -/
  | shl (d : Reg) (a : Reg) (b : Reg) (w : Bool)
  /-- SHR, R120. -/
  | shr (d : Reg) (a : Reg) (b : Reg) (w : Bool)
  /-- SRA, R120. -/
  | sra (d : Reg) (a : Reg) (b : Reg) (w : Bool)
  /-- MUL, R120. -/
  | mul (d : Reg) (a : Reg) (b : Reg) (s : Bool) (w : Bool)
  /-- MULH, R120. -/
  | mulh (d : Reg) (a : Reg) (b : Reg)
  /-- MULHZ, R120. -/
  | mulhz (d : Reg) (a : Reg) (b : Reg)
  /-- DIV, R121. -/
  | div (d : Reg) (a : Reg) (b : Reg)
  /-- DIVZ, R121. -/
  | divz (d : Reg) (a : Reg) (b : Reg)
  /-- REM, R121. -/
  | rem (d : Reg) (a : Reg) (b : Reg)
  /-- REMZ, R121. -/
  | remz (d : Reg) (a : Reg) (b : Reg)
  /-- MIN, R120. -/
  | min (d : Reg) (a : Reg) (b : Reg)
  /-- MAX, R120. -/
  | max (d : Reg) (a : Reg) (b : Reg)
  /-- MINZ, R120. -/
  | minz (d : Reg) (a : Reg) (b : Reg)
  /-- MAXZ, R120. -/
  | maxz (d : Reg) (a : Reg) (b : Reg)
  /-- SLT, R120. -/
  | slt (d : Reg) (a : Reg) (b : Reg)
  /-- SLTZ, R120. -/
  | sltz (d : Reg) (a : Reg) (b : Reg)
  /-- SEQ, R120. -/
  | seq (d : Reg) (a : Reg) (b : Reg)
  /-- SNE, R120. -/
  | sne (d : Reg) (a : Reg) (b : Reg)
  /-- CLZ, R120. -/
  | clz (d : Reg) (a : Reg)
  /-- POPC, R120. -/
  | popc (d : Reg) (a : Reg)
  /-- ADDI, R122. -/
  | addi (d : Reg) (a : Reg) (i : BitVec 16)
  /-- ANDI, R122. -/
  | andi (d : Reg) (a : Reg) (i : BitVec 16)
  /-- ORI, R122. -/
  | ori (d : Reg) (a : Reg) (i : BitVec 16)
  /-- XORI, R122. -/
  | xori (d : Reg) (a : Reg) (i : BitVec 16)
  /-- SHLI, R122. -/
  | shli (d : Reg) (a : Reg) (n : BitVec 6)
  /-- SHRI, R122. -/
  | shri (d : Reg) (a : Reg) (n : BitVec 6)
  /-- SRAI, R122. -/
  | srai (d : Reg) (a : Reg) (n : BitVec 6)
  /-- SLTI, R122. -/
  | slti (d : Reg) (a : Reg) (i : BitVec 16)
  /-- LUI, R122. -/
  | lui (d : Reg) (i : BitVec 21)
  /-- LDB, R123. -/
  | ldb (d : Reg) (a : Reg) (i : BitVec 16)
  /-- LDH, R123. -/
  | ldh (d : Reg) (a : Reg) (i : BitVec 16)
  /-- LDW, R123. -/
  | ldw (d : Reg) (a : Reg) (i : BitVec 16)
  /-- LDD, R123. -/
  | ldd (d : Reg) (a : Reg) (i : BitVec 16)
  /-- LDBZ, R123. -/
  | ldbz (d : Reg) (a : Reg) (i : BitVec 16)
  /-- LDHZ, R123. -/
  | ldhz (d : Reg) (a : Reg) (i : BitVec 16)
  /-- LDWZ, R123. -/
  | ldwz (d : Reg) (a : Reg) (i : BitVec 16)
  /-- STB, R123. -/
  | stb (d : Reg) (a : Reg) (i : BitVec 16)
  /-- STH, R123. -/
  | sth (d : Reg) (a : Reg) (i : BitVec 16)
  /-- STW, R123. -/
  | stw (d : Reg) (a : Reg) (i : BitVec 16)
  /-- STD, R123. -/
  | std (d : Reg) (a : Reg) (i : BitVec 16)
  /-- STQ, R123. -/
  | stq (d : Reg) (a : Reg) (i : BitVec 16)
  /-- LDQ, R123. -/
  | ldq (d : Reg) (a : Reg) (i : BitVec 16)
  /-- B_EQ, R128. -/
  | bEq (a : Reg) (b : Reg) (o : BitVec 11)
  /-- B_NE, R128. -/
  | bNe (a : Reg) (b : Reg) (o : BitVec 11)
  /-- B_LT, R128. -/
  | bLt (a : Reg) (b : Reg) (o : BitVec 11)
  /-- B_GE, R128. -/
  | bGe (a : Reg) (b : Reg) (o : BitVec 11)
  /-- B_LTZ, R128. -/
  | bLtz (a : Reg) (b : Reg) (o : BitVec 11)
  /-- B_GEZ, R128. -/
  | bGez (a : Reg) (b : Reg) (o : BitVec 11)
  /-- JAL, R128. -/
  | jal (d : Reg) (i : BitVec 21)
  /-- JR, R128. -/
  | jr (d : Reg) (a : Reg) (i : BitVec 16)
  /-- LOOP, R130. -/
  | loop (l : BitVec 2) (a : Reg) (n : BitVec 8)
  /-- LOOPI, R130. -/
  | loopi (l : BitVec 2) (c : BitVec 16) (n : BitVec 8)
  /-- SCENE_RUN, R133. -/
  | sceneRun (s : BitVec 2)
  /-- SCENE_LOAD, R132. -/
  | sceneLoad (a : Reg) (s : BitVec 2)
  /-- SCENE_WAIT, R133. -/
  | sceneWait (s : BitVec 2)
  /-- SCENE_SWAP, R134. -/
  | sceneSwap (s : BitVec 2)
  /-- SCENE_GATE, R135. -/
  | sceneGate (a : Reg) (o : Bool)
  /-- SCENE_CURT, R136. -/
  | sceneCurt
  /-- SCENE_MARK, R137. -/
  | sceneMark (a : Reg)
  /-- CMD_PACK, R139. -/
  | cmdPack (a : Reg) (b : Reg) (c : BitVec 3)
  /-- CMD_ISSUE, R139. -/
  | cmdIssue (c : BitVec 3)
  /-- CMD_APPEND, R139. -/
  | cmdAppend (a : Reg) (c : BitVec 3)
  /-- CMD_SEQW, R140. -/
  | cmdSeqw (a : Reg) (b : Reg)
  /-- FENCE_Q, R141. -/
  | fenceQ (a : Reg)
  /-- FENCE_S, R142. -/
  | fenceS (s : BitVec 3)
  /-- AADD, R144. -/
  | aadd (d : Reg) (a : Reg) (b : Reg) (w : Bool)
  /-- AAND, R144. -/
  | aand (d : Reg) (a : Reg) (b : Reg) (w : Bool)
  /-- AOR, R144. -/
  | aor (d : Reg) (a : Reg) (b : Reg) (w : Bool)
  /-- AXOR, R144. -/
  | axor (d : Reg) (a : Reg) (b : Reg) (w : Bool)
  /-- AMIN, R144. -/
  | amin (d : Reg) (a : Reg) (b : Reg) (w : Bool)
  /-- AMAX, R144. -/
  | amax (d : Reg) (a : Reg) (b : Reg) (w : Bool)
  /-- AMINZ, R144. -/
  | aminz (d : Reg) (a : Reg) (b : Reg) (w : Bool)
  /-- AMAXZ, R144. -/
  | amaxz (d : Reg) (a : Reg) (b : Reg) (w : Bool)
  /-- ASWAP, R144. -/
  | aswap (d : Reg) (a : Reg) (b : Reg) (w : Bool)
  /-- ACAS, R144. -/
  | acas (d : Reg) (a : Reg) (b : Reg) (w : Bool)
  /-- TASK_SPAWN, R147. -/
  | taskSpawn (a : Reg)
  /-- TASK_STAMP, R146. -/
  | taskStamp (a : Reg)
  /-- TASK_DONE, R146. -/
  | taskDone
  /-- BAR_ARRIVE, R151. -/
  | barArrive (b : BitVec 5)
  /-- BAR_WAIT, R151. -/
  | barWait (b : BitVec 5)
  /-- EVT_SIG, R153. -/
  | evtSig (e : BitVec 4)
  /-- EVT_WAIT, R153. -/
  | evtWait (e : BitVec 4)
  /-- BAR_INIT, R152. -/
  | barInit (a : Reg) (b : BitVec 5)
  /-- CUE, R155. -/
  | cue (a : Reg) (b : Reg) (i : BitVec 8) (e : Bool)
  /-- TID_DEF, R156. -/
  | tidDef (a : Reg) (n : BitVec 8)
  /-- TID_GET, R156. -/
  | tidGet (a : Reg) (n : BitVec 8)
  /-- TID_DROP, R156. -/
  | tidDrop (n : BitVec 8)
  /-- OPM_CLAIM, R157. -/
  | opmClaim (d : Reg) (a : Reg) (b : Reg)
  /-- OPM_RELEASE, R157. -/
  | opmRelease (d : Reg) (a : Reg) (b : Reg)
  /-- CTX_NEW, R354. -/
  | ctxNew (d : Reg) (a : Reg)
  /-- CTX_GRANT, R355. -/
  | ctxGrant (a : Reg) (b : Reg)
  /-- CTX_REVOKE, R357. -/
  | ctxRevoke (a : Reg)
  /-- CTX_ENTER, R158. -/
  | ctxEnter (a : Reg)
  /-- CTX_EXIT, R158. -/
  | ctxExit
  /-- CTX_STAT, R358. -/
  | ctxStat (d : Reg) (a : Reg)
  /-- TRAP, R160. -/
  | trap (n : BitVec 5)
  /-- ERET, R118. -/
  | eret
  /-- HALT, R161. -/
  | halt
  /-- WAIT, R154. -/
  | wait (a : Reg)
  /-- MFS, R162. -/
  | mfs (d : Reg) (n : BitVec 16)
  /-- MTS, R119. -/
  | mts (a : Reg) (n : BitVec 16)
  /-- CNT, R163. -/
  | cnt (d : Reg) (i : BitVec 16)
  /-- COMMAND_LEAVES_ISSUE_BUFFER, R202. -/
  | commandLeavesIssueBuffer (act : Nat)
  /-- CHAIN_ENTRY_READ, R209. -/
  | chainEntryRead (q : QueueId)
  /-- RD_LIN, R214. -/
  | rdLin (q : QueueId)
  /-- RD_GATH, R215. -/
  | rdGath (q : QueueId)
  /-- WR_LIN, R216. -/
  | wrLin (q : QueueId)
  /-- WR_SCAT, R217. -/
  | wrScat (q : QueueId)
  /-- RD_OPM, R219. -/
  | rdOpm (q : QueueId)
  /-- WR_LOG, R218. -/
  | wrLog (q : QueueId)
  /-- CP, R225. -/
  | cp (q : QueueId)
  /-- CP_2D, R225. -/
  | cp2d (q : QueueId)
  /-- FILL, R226. -/
  | fill (q : QueueId)
  /-- BCAST, R221. -/
  | bcast (q : QueueId)
  /-- COL_RED, R229. -/
  | colRed (q : QueueId)
  /-- COL_GATH, R230. -/
  | colGath (q : QueueId)
  /-- COL_BAR, R231. -/
  | colBar (q : QueueId)
  /-- SIG, R232. -/
  | sig (q : QueueId)
  /-- LINK, R232. -/
  | link (q : QueueId)
  /-- QFENCE, R233. -/
  | qfence (q : QueueId)
  /-- SCALE, R220. -/
  | scale (q : QueueId)
  /-- COMMAND_COMPLETION, R204. -/
  | commandCompletion (q : QueueId)
  /-- READ_STREAM_TOKEN, R211. -/
  | readStreamToken (q : QueueId)
  /-- WRITE_STREAM_TOKEN, R212. -/
  | writeStreamToken (q : QueueId)
  /-- STREAM_CLOSE_AT_WRITE, R212. -/
  | streamCloseAtWrite (q : QueueId)
  /-- PIPELINE_FIRING, R168. -/
  | pipelineFiring (t : TileId)
  /-- GEN_STREAM_CLOSE, R186. -/
  | genStreamClose (t : TileId)
  /-- MM, R196. -/
  | mm (t : TileId)
  /-- MM_SP, R196. -/
  | mmSp (t : TileId)
  /-- ACC_CLR, R198. -/
  | accClr (t : TileId)
  /-- DRAIN, R198. -/
  | drain (t : TileId)
  /-- SAT, R198. -/
  | sat (t : TileId)
  /-- ZERO_SLOT_REQUEST, R59. -/
  | zeroSlotRequest (t : TileId) (inp : Nat)
  /-- MARKER_PASSAGE, R64. -/
  | markerPassage (t : TileId) (el : Element)
  /-- SCALE_TOKEN_FORWARD, R65. -/
  | scaleTokenForward (t : TileId) (inp : Nat)
  /-- SCALE_TOKEN_LATCH, R188. -/
  | scaleTokenLatch (t : TileId) (inp : Nat)
  /-- REGION_ENTRY_TOKEN, R241. -/
  | regionEntryToken (t : TileId) (inp : Nat)
  /-- HEDGE, R367. -/
  | hedge (die : Nat)
  /-- FUSED_TILE_DROP, R430. -/
  | fusedTileDrop (die : Nat)
  /-- MISROUTED_TOKEN_DROP, R386. -/
  | misroutedTokenDrop (die : Nat)
  /-- MARK_INSERTION, R137. -/
  | markInsertion (act : Nat)
  /-- CUT_COMPLETE, R373. -/
  | cutComplete (act : Nat)
  /-- ROLLBACK, R376. -/
  | rollback (act : Nat) (code : Byte) (arg : Dbl)
  /-- STALL_WATCHDOG, R379. -/
  | stallWatchdog (act : Nat)
  /-- PAGE_FAULT_DRAIN, R285. -/
  | pageFaultDrain (act : Nat)
  /-- CURTAIN_COMPLETE, R370. -/
  | curtainComplete (act : Nat)
  /-- BANK_WAKE, R274. -/
  | bankWake (die : Nat) (bank : Nat)
  /-- SLOT_STROKE, R414. -/
  | slotStroke (part : Nat) (die : Nat)
  /-- SYMBOL_STROKE, R414. -/
  | symbolStroke (part : Nat) (die : Nat) (j : Nat)
  /-- STANDBY_STROKE_TAKEOVER, R415. -/
  | standbyStrokeTakeover (part : Nat) (die : Nat)
  /-- POWER_INTERVAL_BOUNDARY, R318. -/
  | powerIntervalBoundary (budgets : List (Nat × Nat)) (points : List (Nat × Nat)) (levels : List (Nat × Nat))
  /-- ATOMIC_ENGINE_SERVICE, R293. -/
  | atomicEngineService (die : Nat) (blk : Nat)
  /-- TASK_BECOMES_OLDEST, R298. -/
  | taskBecomesOldest (ctx : Nat)
  /-- TASK_COMMIT, R298. -/
  | taskCommit (ctx : Nat)
  /-- PAGE_TABLE_WALK, R360. -/
  | pageTableWalk (die : Nat) (ctx : Nat) (va : Dbl)
  /-- SHOOTDOWN_COMPLETE, R282. -/
  | shootdownComplete (ctx : Nat) (va : Dbl) (len : Nat)
  /-- PAGE_ANSWER, R403. -/
  | pageAnswer (tag : Nat) (refused : Bool)
  /-- SUBMISSION_DOORBELL, R333. -/
  | submissionDoorbell (ctx : Nat)
  /-- LAUNCH_RECORD, R337. -/
  | launchRecord (ctx : Nat)
  /-- LAUNCH_ADMISSION, R338. -/
  | launchAdmission (launch : Nat) (places : List Placement)
  /-- TILE_ACKNOWLEDGEMENT, R255. -/
  | tileAcknowledgement (launch : Nat) (t : TileId)
  /-- GRAPH_RECORD, R344. -/
  | graphRecord (ctx : Nat)
  /-- CANCEL_RECORD, R348. -/
  | cancelRecord (ctx : Nat)
  /-- QUEUE_RESET_RECORD, R340. -/
  | queueResetRecord (ctx : Nat)
  /-- NODE_DISPATCH, R345. -/
  | nodeDispatch (graph : Nat) (node : Nat)
  /-- NODE_COMPLETION, R345. -/
  | nodeCompletion (graph : Nat) (node : Nat)
  /-- PREFAULT, R402. -/
  | prefault (graph : Nat) (node : Nat)
  /-- CRC, R402. -/
  | crc (graph : Nat) (node : Nat)
  /-- QRESET, R402. -/
  | qreset (graph : Nat) (node : Nat)
  /-- NOTE, R402. -/
  | note (graph : Nat) (node : Nat)
  /-- SCHEDULING_PERIOD_BOUNDARY, R350. -/
  | schedulingPeriodBoundary (vdev : Nat)
  /-- QUANTUM_BOUNDARY, R351. -/
  | quantumBoundary (part : Nat)
  /-- REFLECTION_RECORD, R363. -/
  | reflectionRecord (ctx : Nat)
  /-- RFETCH, R397. -/
  | rfetch (s : Reg) (d : Reg)
  /-- BFX, R398. -/
  | bfx (l : BitVec 6) (p : BitVec 6) (s : Reg) (d : Reg)
  /-- SWAIT, R399. -/
  | swait (t : Reg) (s : Reg) (d : Reg)
  /-- SWAIT_WAKE, R399. -/
  | swaitWake (cdie : Nat) (core : Nat)
  /-- SWAIT_TIMEOUT, R399. -/
  | swaitTimeout (cdie : Nat) (core : Nat)
  /-- DISP, R401. -/
  | disp (s : Reg) (d : Reg)
  /-- DISPATCH_START, R401. -/
  | dispatchStart (cdie : Nat) (core : Nat)
  /-- DISPATCH_CURTAIN, R370. -/
  | dispatchCurtain (cdie : Nat) (core : Nat)
  /-- DISPATCH_RESTORE, R372. -/
  | dispatchRestore (cdie : Nat) (core : Nat)
  /-- DISPATCH_CHAIN, R345. -/
  | dispatchChain (cdie : Nat) (core : Nat)
  /-- XTIMECMP_WRITE, R400. -/
  | xtimecmpWrite (cdie : Nat) (core : Nat) (v : Dbl)
  /-- TIMER_EXPIRY, R400. -/
  | timerExpiry (cdie : Nat) (core : Nat)
  /-- HEARTBEAT_SEND, R404. -/
  | heartbeatSend (cdie : Nat)
  /-- HEARTBEAT_ARRIVAL, R404. -/
  | heartbeatArrival (cdie : Nat)
  /-- HEARTBEAT_MISS, R404. -/
  | heartbeatMiss (cdie : Nat)
  /-- FENCE_HOLD_EXPIRY, R406. -/
  | fenceHoldExpiry (die : Nat)
  /-- ADOPTION, R407. -/
  | adoption (cdie : Nat)
  /-- POWER_CAP_REQUEST, R410. -/
  | powerCapRequest (mw : Nat)
  /-- BANDWIDTH_SHARE_REQUEST, R412. -/
  | bandwidthShareRequest (part : Nat) (stack : Nat) (share : Nat)
  /-- TIME_SOURCE_LOSS, R416. -/
  | timeSourceLoss
  /-- TIME_SOURCE_RETURN, R416. -/
  | timeSourceReturn
  /-- TAMPER, R423. -/
  | tamper
  /-- SUPPLY_GLITCH, R423. -/
  | supplyGlitch
  /-- ALARM_RELEASE, R424. -/
  | alarmRelease (req : List Byte)
  /-- FUSE_REQUEST, R419. -/
  | fuseRequest (lms : Bool) (slot : Nat) (revoke : Bool) (key : List Byte) (req : List Byte)
  /-- GET_VERSION, R421. -/
  | getVersion (ring : Bool)
  /-- GET_CAPABILITIES, R421. -/
  | getCapabilities (ring : Bool)
  /-- NEGOTIATE_ALGORITHMS, R421. -/
  | negotiateAlgorithms (ring : Bool) (p384 : Bool) (sha384 : Bool)
  /-- GET_DIGESTS, R421. -/
  | getDigests (ring : Bool)
  /-- GET_CERTIFICATE, R421. -/
  | getCertificate (ring : Bool)
  /-- CHALLENGE, R421. -/
  | challenge (ring : Bool) (nonce : List Byte)
  /-- GET_MEASUREMENTS, R421. -/
  | getMeasurements (ring : Bool) (index : Nat) (nonce : List Byte)
  /-- IMAGE_ADMISSION, R254. -/
  | imageAdmission (ctx : Nat) (va : Dbl) (emitted : List Nat)
  /-- VERIFY_REQUEST, R441. -/
  | verifyRequest (cdie : Nat) (core : Nat)
  /-- RELOCATION_REQUEST, R438. -/
  | relocationRequest (cdie : Nat) (core : Nat) (pa : Nat)
  /-- LOAD_REQUEST, R443. -/
  | loadRequest (act : Nat) (slot : Nat)
  /-- CONFIG_CLEAR, R442. -/
  | configClear (die : Nat)
  /-- CONFIG_WRITE, R442. -/
  | configWrite (die : Nat)
  /-- SCENE_LOAD_COMPLETE, R443. -/
  | sceneLoadComplete (act : Nat) (slot : Nat)
  /-- SCRUB, R427. -/
  | scrub (what : ScrubTarget) (found : ScrubFinding)
  /-- PACKAGE_RESET, R420. -/
  | packageReset (images : List Firmware) (boot : BootRecord)
  /-- FABRIC_DIE_RESET, R18. -/
  | fabricDieReset (die : Nat)
  /-- ETH_FRAME, R19. -/
  | ethFrame (port : Nat) (frame : List Byte) (ptpEvent : Bool)
  /-- SEQ_COMMAND, R232. -/
  | seqCommand (q : QueueId)
  /-- ILLEGAL_INSTRUCTION, R81. -/
  | illegalInstruction (word : BitVec 32)
  /-- DIE_LINK_DOWN, R11. -/
  | dieLinkDown (a : Nat) (b : Nat)
  /-- DIE_LINK_UP, R11. -/
  | dieLinkUp (a : Nat) (b : Nat)
  /-- HOST_ATTACH, R20. -/
  | hostAttach
  /-- HOST_PORT_ACCESS, R20. -/
  | hostPortAccess (fn : Nat) (pa : Nat) (write : Bool) (data : List Byte) (len : Nat)
  /-- PARTITION_CHANGE, R365. -/
  | partitionChange (part : Nat) (spec : Option PartSpec)
  /-- VIRTUAL_DEVICE_CREATE, R364. -/
  | virtualDeviceCreate (ctx : Nat) (part : Nat) (desc : Option (List Byte)) (quantum : Nat) (period : Nat) (vf : Option Nat) (traceRing : Nat) (traceMask : W32)
  /-- CONTROL_DIE_FAILURE, R404. -/
  | controlDieFailure (cdie : Nat)
deriving DecidableEq, Repr

end Sys2Proof
end

