-- ==== Sys2Proof/WellFormed.lean ====
section
/-! DEFINITION. The limits an instruction's operands keep: those R73 and R75 to R80 state for control-stream
words, and the ranges of the places an event names (R10, R15, R96, R110, R201, R365, R393). -/
namespace Sys2Proof

/-- R80: the system-register numbers that MFS and MTS may name. -/
def sysRegListed (n : Nat) : Bool :=
  n ≤ 0x04 || (0x10 ≤ n && n ≤ 0x14) || (0x20 ≤ n && n ≤ 0x22) || (0x30 ≤ n && n ≤ 0x36)

/-- R10, R96: a tile of one of the eight fabric dies. -/
def tileOk (t : TileId) : Bool := t.die < 8 && t.tile < 320

/-- R92, R201: a port queue of a die or one of the 64 queues of a context. -/
def queueOk : QueueId → Bool
  | .port die port => die < 8 && port < 64
  | .ctx ctx n => ctx < 4096 && n < 64

/-- An instruction within the limits its rule states; the decoder answers no other. -/
def Instr.wf : Instr → Bool
  | .add _ _ _ _ _ => true
  | .sub _ _ _ _ _ => true
  | .and _ _ _ => true
  | .or _ _ _ => true
  | .xor _ _ _ => true
  | .shl _ _ _ _ => true
  | .shr _ _ _ _ => true
  | .sra _ _ _ _ => true
  | .mul _ _ _ _ _ => true
  | .mulh _ _ _ => true
  | .mulhz _ _ _ => true
  | .div _ _ _ => true
  | .divz _ _ _ => true
  | .rem _ _ _ => true
  | .remz _ _ _ => true
  | .min _ _ _ => true
  | .max _ _ _ => true
  | .minz _ _ _ => true
  | .maxz _ _ _ => true
  | .slt _ _ _ => true
  | .sltz _ _ _ => true
  | .seq _ _ _ => true
  | .sne _ _ _ => true
  | .clz _ _ => true
  | .popc _ _ => true
  | .addi _ _ _ => true
  | .andi _ _ _ => true
  | .ori _ _ _ => true
  | .xori _ _ _ => true
  | .shli _ _ _ => true
  | .shri _ _ _ => true
  | .srai _ _ _ => true
  | .slti _ _ _ => true
  | .lui _ _ => true
  | .ldb _ _ _ => true
  | .ldh _ _ _ => true
  | .ldw _ _ _ => true
  | .ldd _ _ _ => true
  | .ldbz _ _ _ => true
  | .ldhz _ _ _ => true
  | .ldwz _ _ _ => true
  | .stb _ _ _ => true
  | .sth _ _ _ => true
  | .stw _ _ _ => true
  | .std _ _ _ => true
  | .stq d _ _ => d.getLsbD 0 == false
  | .ldq d _ _ => d.getLsbD 0 == false
  | .bEq _ _ _ => true
  | .bNe _ _ _ => true
  | .bLt _ _ _ => true
  | .bGe _ _ _ => true
  | .bLtz _ _ _ => true
  | .bGez _ _ _ => true
  | .jal _ _ => true
  | .jr _ _ _ => true
  | .loop l _ n => l.toNat < 3 && n.toNat != 0
  | .loopi l _ n => l.toNat < 3 && n.toNat != 0
  | .sceneRun _ => true
  | .sceneLoad _ _ => true
  | .sceneWait _ => true
  | .sceneSwap _ => true
  | .sceneGate _ _ => true
  | .sceneCurt => true
  | .sceneMark _ => true
  | .cmdPack _ _ _ => true
  | .cmdIssue _ => true
  | .cmdAppend _ _ => true
  | .cmdSeqw _ _ => true
  | .fenceQ _ => true
  | .fenceS s => s.toNat < 5
  | .aadd _ _ _ _ => true
  | .aand _ _ _ _ => true
  | .aor _ _ _ _ => true
  | .axor _ _ _ _ => true
  | .amin _ _ _ _ => true
  | .amax _ _ _ _ => true
  | .aminz _ _ _ _ => true
  | .amaxz _ _ _ _ => true
  | .aswap _ _ _ _ => true
  | .acas _ _ _ _ => true
  | .taskSpawn _ => true
  | .taskStamp _ => true
  | .taskDone => true
  | .barArrive _ => true
  | .barWait _ => true
  | .evtSig _ => true
  | .evtWait _ => true
  | .barInit _ _ => true
  | .cue _ _ _ _ => true
  | .tidDef _ _ => true
  | .tidGet _ _ => true
  | .tidDrop _ => true
  | .opmClaim _ _ _ => true
  | .opmRelease _ _ _ => true
  | .ctxNew _ _ => true
  | .ctxGrant _ _ => true
  | .ctxRevoke _ => true
  | .ctxEnter _ => true
  | .ctxExit => true
  | .ctxStat _ _ => true
  | .trap _ => true
  | .eret => true
  | .halt => true
  | .wait _ => true
  | .mfs _ n => sysRegListed n.toNat
  | .mts _ n => sysRegListed n.toNat
  | .cnt _ _ => true
  | .commandLeavesIssueBuffer act => act < 512
  | .chainEntryRead q => queueOk q
  | .rdLin q => queueOk q
  | .rdGath q => queueOk q
  | .wrLin q => queueOk q
  | .wrScat q => queueOk q
  | .rdOpm q => queueOk q
  | .wrLog q => queueOk q
  | .cp q => queueOk q
  | .cp2d q => queueOk q
  | .fill q => queueOk q
  | .bcast q => queueOk q
  | .colRed q => queueOk q
  | .colGath q => queueOk q
  | .colBar q => queueOk q
  | .sig q => queueOk q
  | .link q => queueOk q
  | .qfence q => queueOk q
  | .scale q => queueOk q
  | .commandCompletion q => queueOk q
  | .readStreamToken q => queueOk q
  | .writeStreamToken q => queueOk q
  | .streamCloseAtWrite q => queueOk q
  | .pipelineFiring t => tileOk t
  | .genStreamClose t => tileOk t
  | .mm t => tileOk t
  | .mmSp t => tileOk t
  | .accClr t => tileOk t
  | .drain t => tileOk t
  | .sat t => tileOk t
  | .zeroSlotRequest t inp => tileOk t && inp < 4
  | .markerPassage t _ => tileOk t
  | .scaleTokenForward t inp => tileOk t && inp < 4
  | .scaleTokenLatch t inp => tileOk t && inp < 4
  | .regionEntryToken t inp => tileOk t && inp < 4
  | .hedge die => die < 8
  | .fusedTileDrop die => die < 8
  | .misroutedTokenDrop die => die < 8
  | .markInsertion act => act < 512
  | .cutComplete act => act < 512
  | .rollback act _ _ => act < 512
  | .stallWatchdog act => act < 512
  | .pageFaultDrain act => act < 512
  | .curtainComplete act => act < 512
  | .bankWake die bank => die < 8 && bank < 512
  | .slotStroke part die => part < 24 && die < 8
  | .symbolStroke part die _ => part < 24 && die < 8
  | .standbyStrokeTakeover part die => part < 24 && die < 8
  | .powerIntervalBoundary _ _ _ => true
  | .atomicEngineService die blk => die < 8 && blk < 16
  | .taskBecomesOldest ctx => ctx < 4096
  | .taskCommit ctx => ctx < 4096
  | .pageTableWalk die ctx _ => die < 8 && ctx < 4096
  | .shootdownComplete ctx _ _ => ctx < 4096
  | .pageAnswer _ _ => true
  | .submissionDoorbell ctx => ctx < 4096
  | .launchRecord ctx => ctx < 4096
  | .launchAdmission _ _ => true
  | .tileAcknowledgement _ t => tileOk t
  | .graphRecord ctx => ctx < 4096
  | .cancelRecord ctx => ctx < 4096
  | .queueResetRecord ctx => ctx < 4096
  | .nodeDispatch _ _ => true
  | .nodeCompletion _ _ => true
  | .prefault _ _ => true
  | .crc _ _ => true
  | .qreset _ _ => true
  | .note _ _ => true
  | .schedulingPeriodBoundary vdev => vdev < 4096
  | .quantumBoundary part => part < 24
  | .reflectionRecord ctx => ctx < 4096
  | .rfetch _ _ => true
  | .bfx _ _ _ _ => true
  | .swait _ _ _ => true
  | .swaitWake cdie core => cdie < 2 && core < 8
  | .swaitTimeout cdie core => cdie < 2 && core < 8
  | .disp _ _ => true
  | .dispatchStart cdie core => cdie < 2 && core < 8
  | .dispatchCurtain cdie core => cdie < 2 && core < 8
  | .dispatchRestore cdie core => cdie < 2 && core < 8
  | .dispatchChain cdie core => cdie < 2 && core < 8
  | .xtimecmpWrite cdie core _ => cdie < 2 && core < 8
  | .timerExpiry cdie core => cdie < 2 && core < 8
  | .heartbeatSend cdie => cdie < 2
  | .heartbeatArrival cdie => cdie < 2
  | .heartbeatMiss cdie => cdie < 2
  | .fenceHoldExpiry die => die < 8
  | .adoption cdie => cdie < 2
  | .powerCapRequest _ => true
  | .bandwidthShareRequest part stack share => part < 24 && stack < 8 && share ≤ 256
  | .timeSourceLoss => true
  | .timeSourceReturn => true
  | .tamper => true
  | .supplyGlitch => true
  | .alarmRelease _ => true
  | .fuseRequest _ slot _ _ _ => slot < 8
  | .getVersion _ => true
  | .getCapabilities _ => true
  | .negotiateAlgorithms _ _ _ => true
  | .getDigests _ => true
  | .getCertificate _ => true
  | .challenge _ _ => true
  | .getMeasurements _ _ _ => true
  | .imageAdmission ctx _ _ => ctx < 4096
  | .verifyRequest cdie core => cdie < 2 && core < 8
  | .relocationRequest cdie core _ => cdie < 2 && core < 8
  | .loadRequest act slot => act < 512 && slot < 4
  | .configClear die => die < 8
  | .configWrite die => die < 8
  | .sceneLoadComplete act slot => act < 512 && slot < 4
  | .scrub _ _ => true
  | .packageReset _ _ => true
  | .fabricDieReset die => die < 8
  | .ethFrame port frame _ => port < 8 && frame.length ≤ 9216
  | .seqCommand q => queueOk q
  | .illegalInstruction _ => true
  | .dieLinkDown a b => a < 10 && b < 10
  | .dieLinkUp a b => a < 10 && b < 10
  | .hostAttach => true
  | .hostPortAccess fn _ _ _ _ => fn < 1025
  | .partitionChange part _ => part < 24
  | .virtualDeviceCreate ctx part _ _ _ _ _ _ => ctx < 4096 && part < 24
  | .controlDieFailure cdie => cdie < 2

end Sys2Proof
end

