-- ==== Sys2Proof/Decode.lean ====
section
/-! DEFINITION. The decoders of the control stream (R72 to R81) and of the Xalholt words (R395), total on
every word and rejecting by name, and after them the encoder, written from the same layouts. -/
namespace Sys2Proof

/-- Why a word is no instruction (R81 for the control stream, R395 for Xalholt). -/
inductive DecodeError where
  /-- A reserved major opcode (R75). -/
  | reservedMajor
  /-- A reserved func or cond code, or a reserved sub-field code (R76 to R78). -/
  | reservedCode
  /-- A non-zero reserved bit or field. -/
  | reservedField
  /-- A qualifier that R76 does not allow for the function. -/
  | qualifier
  /-- STQ or LDQ with an odd register (R75). -/
  | oddPair
  /-- A loop level of 3 (R73). -/
  | loopLevel
  /-- A loop body of no words (R73). -/
  | loopLength
  /-- A system-register number that R80 does not list. -/
  | sysRegister
  /-- A fence scope of 5 to 7 (R78). -/
  | scope
  /-- Not a word of the custom-0 space of R395. -/
  | notXalholt
  /-- Fewer bytes than one word. -/
  | short
deriving DecidableEq, Repr

/-- R2: the field of `len` bits whose least significant bit is bit `lo`. -/
abbrev fld (w : W32) (lo len : Nat) : BitVec len := w.extractLsb' lo len

/-- R72, layout RR (and SY, CM). -/
def rr (m : BitVec 6) (d a b : BitVec 5) (f : BitVec 6) (o : BitVec 5) : W32 :=
  m ++ d ++ a ++ b ++ f ++ o

/-- R72, layout RI. -/
def ri (m : BitVec 6) (d a : BitVec 5) (i : BitVec 16) : W32 := m ++ d ++ a ++ i

/-- R72, layout BR. -/
def br (m : BitVec 6) (c a b : BitVec 5) (o : BitVec 11) : W32 := m ++ c ++ a ++ b ++ o

/-- R72, layout JL. -/
def jl (m : BitVec 6) (d : BitVec 5) (i : BitVec 21) : W32 := m ++ d ++ i

/-- R73, LOOP. -/
def lp (m : BitVec 6) (l : BitVec 2) (a : BitVec 5) (n : BitVec 8) : W32 :=
  m ++ l ++ (0 : BitVec 3) ++ a ++ n ++ (0 : BitVec 8)

/-- R73, LOOPI. -/
def lpi (m : BitVec 6) (l : BitVec 2) (c : BitVec 16) (n : BitVec 8) : W32 := m ++ l ++ c ++ n

/-- R79, R155: CUE. -/
def cueWord (a b : BitVec 5) (i : BitVec 8) (e : Bool) : W32 :=
  (0x22 : BitVec 6) ++ (0 : BitVec 5) ++ a ++ b ++ i ++ BitVec.ofBool e ++ (0 : BitVec 2)

/-- R75: mod [4] S, [3] W, [2:0] reserved. -/
def modSW (s w : Bool) : BitVec 5 := BitVec.ofBool s ++ BitVec.ofBool w ++ (0 : BitVec 3)

/-- R395: the Xalholt layout, in the custom-0 opcode. -/
def xr (hi : BitVec 6) (lo : BitVec 6) (s : BitVec 5) (f : BitVec 3) (d : BitVec 5) : W32 :=
  hi ++ lo ++ s ++ f ++ d ++ (0x0B : BitVec 7)

/-- An instruction accepted under a condition, or the reason it is refused. -/
def accept (ok : Bool) (e : DecodeError) (i : Instr) : Except DecodeError Instr :=
  if ok then .ok i else .error e

/-- R76: the ALU group. -/
def decodeAlu (d a b : BitVec 5) (f : Nat) (s w : Bool) (z : BitVec 3) : Except DecodeError Instr :=
  if z ≠ 0 then .error .reservedField
  else match f with
  | 0 => .ok (.add d a b s w)
  | 1 => .ok (.sub d a b s w)
  | 2 => accept (!s && !w) .qualifier (.and d a b)
  | 3 => accept (!s && !w) .qualifier (.or d a b)
  | 4 => accept (!s && !w) .qualifier (.xor d a b)
  | 5 => accept (!s) .qualifier (.shl d a b w)
  | 6 => accept (!s) .qualifier (.shr d a b w)
  | 7 => accept (!s) .qualifier (.sra d a b w)
  | 8 => .ok (.mul d a b s w)
  | 9 => accept (!s && !w) .qualifier (.mulh d a b)
  | 10 => accept (!s && !w) .qualifier (.mulhz d a b)
  | 11 => accept (!s && !w) .qualifier (.div d a b)
  | 12 => accept (!s && !w) .qualifier (.divz d a b)
  | 13 => accept (!s && !w) .qualifier (.rem d a b)
  | 14 => accept (!s && !w) .qualifier (.remz d a b)
  | 15 => accept (!s && !w) .qualifier (.min d a b)
  | 16 => accept (!s && !w) .qualifier (.max d a b)
  | 17 => accept (!s && !w) .qualifier (.minz d a b)
  | 18 => accept (!s && !w) .qualifier (.maxz d a b)
  | 19 => accept (!s && !w) .qualifier (.slt d a b)
  | 20 => accept (!s && !w) .qualifier (.sltz d a b)
  | 21 => accept (!s && !w) .qualifier (.seq d a b)
  | 22 => accept (!s && !w) .qualifier (.sne d a b)
  | 23 => accept (!s && !w && b == 0) .qualifier (.clz d a)
  | 24 => accept (!s && !w && b == 0) .qualifier (.popc d a)
  | _ => .error .reservedCode

/-- R75, major 0x05: the shifts by an immediate count. -/
def decodeShiftImm (d a : BitVec 5) (k : Nat) (z : BitVec 8) (n : BitVec 6) : Except DecodeError Instr :=
  if z ≠ 0 then .error .reservedField
  else match k with
  | 0 => .ok (.shli d a n)
  | 1 => .ok (.shri d a n)
  | 2 => .ok (.srai d a n)
  | _ => .error .reservedCode

/-- R77: the conditional branches. -/
def decodeBranch (c : Nat) (a b : BitVec 5) (o : BitVec 11) : Except DecodeError Instr :=
  match c with
  | 0 => .ok (.bEq a b o)
  | 1 => .ok (.bNe a b o)
  | 2 => .ok (.bLt a b o)
  | 3 => .ok (.bGe a b o)
  | 4 => .ok (.bLtz a b o)
  | 5 => .ok (.bGez a b o)
  | _ => .error .reservedCode

/-- R78, major 0x1C: the SCENE group. -/
def decodeScene (d a b : BitVec 5) (f : Nat) (o : BitVec 5) : Except DecodeError Instr :=
  let s : BitVec 2 := o.extractLsb' 0 2
  let hi := o.extractLsb' 2 3
  match f with
  | 0 => accept (d == 0 && a == 0 && b == 0 && hi == 0) .reservedField (.sceneRun s)
  | 1 => accept (d == 0 && b == 0 && hi == 0) .reservedField (.sceneLoad a s)
  | 2 => accept (d == 0 && a == 0 && b == 0 && hi == 0) .reservedField (.sceneWait s)
  | 3 => accept (d == 0 && a == 0 && b == 0 && hi == 0) .reservedField (.sceneSwap s)
  | 4 => accept (d == 0 && b == 0 && o.extractLsb' 1 4 == 0) .reservedField (.sceneGate a (o.getLsbD 0))
  | 5 => accept (d == 0 && a == 0 && b == 0 && o == 0) .reservedField .sceneCurt
  | 6 => accept (d == 0 && b == 0 && o == 0) .reservedField (.sceneMark a)
  | _ => .error .reservedCode

/-- R78, major 0x1D: the CMD group. -/
def decodeCmd (d a b : BitVec 5) (f : Nat) (o : BitVec 5) : Except DecodeError Instr :=
  let c : BitVec 3 := o.extractLsb' 2 3
  let lo := o.extractLsb' 0 2
  match f with
  | 0 => accept (d == 0 && lo == 0) .reservedField (.cmdPack a b c)
  | 1 => accept (d == 0 && a == 0 && b == 0 && lo == 0) .reservedField (.cmdIssue c)
  | 2 => accept (d == 0 && b == 0 && lo == 0) .reservedField (.cmdAppend a c)
  | 3 => accept (d == 0 && o == 0) .reservedField (.cmdSeqw a b)
  | _ => .error .reservedCode

/-- R78, major 0x1E: the FENCE group. -/
def decodeFence (d a b : BitVec 5) (f : Nat) (o : BitVec 5) : Except DecodeError Instr :=
  let s : BitVec 3 := o.extractLsb' 0 3
  match f with
  | 0 => accept (d == 0 && b == 0 && o == 0) .reservedField (.fenceQ a)
  | 1 =>
    if s.toNat < 5 then
      accept (d == 0 && a == 0 && b == 0 && o.extractLsb' 3 2 == 0) .reservedField (.fenceS s)
    else .error .scope
  | _ => .error .reservedCode

/-- R76: the AMO group. -/
def decodeAmo (d a b : BitVec 5) (f : Nat) (o : BitVec 5) : Except DecodeError Instr :=
  let w := o.getLsbD 4
  if o.extractLsb' 0 4 ≠ 0 then .error .reservedField
  else match f with
  | 0 => .ok (.aadd d a b w)
  | 1 => .ok (.aand d a b w)
  | 2 => .ok (.aor d a b w)
  | 3 => .ok (.axor d a b w)
  | 4 => .ok (.amin d a b w)
  | 5 => .ok (.amax d a b w)
  | 6 => .ok (.aminz d a b w)
  | 7 => .ok (.amaxz d a b w)
  | 8 => .ok (.aswap d a b w)
  | 9 => .ok (.acas d a b w)
  | _ => .error .reservedCode

/-- R78, major 0x20: the TASK group. -/
def decodeTask (d a b : BitVec 5) (f : Nat) (o : BitVec 5) : Except DecodeError Instr :=
  match f with
  | 0 => accept (d == 0 && b == 0 && o == 0) .reservedField (.taskSpawn a)
  | 1 => accept (d == 0 && b == 0 && o == 0) .reservedField (.taskStamp a)
  | 2 => accept (d == 0 && a == 0 && b == 0 && o == 0) .reservedField .taskDone
  | _ => .error .reservedCode

/-- R78, major 0x21: barriers and events. -/
def decodeBarEvt (d a b : BitVec 5) (f : Nat) (o : BitVec 5) : Except DecodeError Instr :=
  let e : BitVec 4 := o.extractLsb' 0 4
  match f with
  | 0 => accept (d == 0 && a == 0 && b == 0) .reservedField (.barArrive o)
  | 1 => accept (d == 0 && a == 0 && b == 0) .reservedField (.barWait o)
  | 2 => accept (d == 0 && a == 0 && b == 0 && !o.getLsbD 4) .reservedField (.evtSig e)
  | 3 => accept (d == 0 && a == 0 && b == 0 && !o.getLsbD 4) .reservedField (.evtWait e)
  | 4 => accept (d == 0 && b == 0) .reservedField (.barInit a o)
  | _ => .error .reservedCode

/-- R75, major 0x23: the TID group. -/
def decodeTid (d a : BitVec 5) (k : Nat) (z : BitVec 6) (n : BitVec 8) : Except DecodeError Instr :=
  match k with
  | 0 => accept (d == 0 && z == 0) .reservedField (.tidDef a n)
  | 1 => accept (d == 0 && z == 0) .reservedField (.tidGet a n)
  | 2 => accept (d == 0 && a == 0 && z == 0) .reservedField (.tidDrop n)
  | _ => .error .reservedCode

/-- R75, major 0x24: the OPM group. -/
def decodeOpm (d a b : BitVec 5) (f : Nat) (o : BitVec 5) : Except DecodeError Instr :=
  match f with
  | 0 => accept (o == 0) .reservedField (.opmClaim d a b)
  | 1 => accept (o == 0) .reservedField (.opmRelease d a b)
  | _ => .error .reservedCode

/-- R78, major 0x25: the CTX group. -/
def decodeCtx (d a b : BitVec 5) (f : Nat) (o : BitVec 5) : Except DecodeError Instr :=
  match f with
  | 0 => accept (b == 0 && o == 0) .reservedField (.ctxNew d a)
  | 1 => accept (d == 0 && o == 0) .reservedField (.ctxGrant a b)
  | 2 => accept (d == 0 && b == 0 && o == 0) .reservedField (.ctxRevoke a)
  | 3 => accept (d == 0 && b == 0 && o == 0) .reservedField (.ctxEnter a)
  | 4 => accept (d == 0 && a == 0 && b == 0 && o == 0) .reservedField .ctxExit
  | 5 => accept (b == 0 && o == 0) .reservedField (.ctxStat d a)
  | _ => .error .reservedCode

/-- R78, major 0x26: TRAP, ERET, HALT and WAIT. -/
def decodeSys (d a b : BitVec 5) (f : Nat) (o : BitVec 5) : Except DecodeError Instr :=
  match f with
  | 0 => accept (d == 0 && a == 0 && b == 0) .reservedField (.trap o)
  | 1 => accept (d == 0 && a == 0 && b == 0 && o == 0) .reservedField .eret
  | 2 => accept (d == 0 && a == 0 && b == 0 && o == 0) .reservedField .halt
  | 3 => accept (d == 0 && b == 0 && o == 0) .reservedField (.wait a)
  | _ => .error .reservedCode

/-- R73, R75: LOOP and LOOPI, with their limits. -/
def decodeLoop (l : BitVec 2) (n : BitVec 8) (z : Bool) (i : Instr) : Except DecodeError Instr :=
  if ¬ l.toNat < 3 then .error .loopLevel
  else if n.toNat = 0 then .error .loopLength
  else accept z .reservedField i

/-- R75, R81: the control-stream decoder, by major opcode. -/
def decodeControl (w : W32) : Except DecodeError Instr :=
  let d := fld w 21 5
  let a := fld w 16 5
  let b := fld w 11 5
  let f := (fld w 5 6).toNat
  let o := fld w 0 5
  let i := fld w 0 16
  match (fld w 26 6).toNat with
  | 0x00 => decodeAlu d a b f (fld w 4 1 == 1) (fld w 3 1 == 1) (fld w 0 3)
  | 0x01 => .ok (.addi d a i)
  | 0x02 => .ok (.andi d a i)
  | 0x03 => .ok (.ori d a i)
  | 0x04 => .ok (.xori d a i)
  | 0x05 => decodeShiftImm d a (fld w 14 2).toNat (fld w 6 8) (fld w 0 6)
  | 0x06 => .ok (.slti d a i)
  | 0x07 => .ok (.lui d (fld w 0 21))
  | 0x08 => .ok (.ldb d a i)
  | 0x09 => .ok (.ldh d a i)
  | 0x0A => .ok (.ldw d a i)
  | 0x0B => .ok (.ldd d a i)
  | 0x0C => .ok (.ldbz d a i)
  | 0x0D => .ok (.ldhz d a i)
  | 0x0E => .ok (.ldwz d a i)
  | 0x10 => .ok (.stb d a i)
  | 0x11 => .ok (.sth d a i)
  | 0x12 => .ok (.stw d a i)
  | 0x13 => .ok (.std d a i)
  | 0x14 => accept (d.getLsbD 0 == false) .oddPair (.stq d a i)
  | 0x15 => accept (d.getLsbD 0 == false) .oddPair (.ldq d a i)
  | 0x16 => decodeBranch d.toNat a b (fld w 0 11)
  | 0x17 => .ok (.jal d (fld w 0 21))
  | 0x18 => .ok (.jr d a i)
  | 0x19 => decodeLoop (fld w 24 2) (fld w 8 8) (fld w 21 3 == 0 && fld w 0 8 == 0)
      (.loop (fld w 24 2) a (fld w 8 8))
  | 0x1A => decodeLoop (fld w 24 2) (fld w 0 8) true (.loopi (fld w 24 2) (fld w 8 16) (fld w 0 8))
  | 0x1C => decodeScene d a b f o
  | 0x1D => decodeCmd d a b f o
  | 0x1E => decodeFence d a b f o
  | 0x1F => decodeAmo d a b f o
  | 0x20 => decodeTask d a b f o
  | 0x21 => decodeBarEvt d a b f o
  | 0x22 => accept (d == 0 && fld w 0 2 == 0) .reservedField (.cue a b (fld w 3 8) (fld w 2 1 == 1))
  | 0x23 => decodeTid d a (fld w 14 2).toNat (fld w 8 6) (fld w 0 8)
  | 0x24 => decodeOpm d a b f o
  | 0x25 => decodeCtx d a b f o
  | 0x26 => decodeSys d a b f o
  | 0x27 => if sysRegListed i.toNat then accept (a == 0) .reservedField (.mfs d i) else .error .sysRegister
  | 0x28 => if sysRegListed i.toNat then accept (d == 0) .reservedField (.mts a i) else .error .sysRegister
  | 0x29 => accept (a == 0) .reservedField (.cnt d i)
  | _ => .error .reservedMajor

/-- R395: the Xalholt decoder; a management core asks it for words of the custom-0 space. -/
def decodeXalholt (w : W32) : Except DecodeError Instr :=
  let d := fld w 7 5
  let s := fld w 15 5
  if fld w 0 7 ≠ 0x0B then .error .notXalholt
  else match (fld w 12 3).toNat with
  | 0 => accept (fld w 20 12 == 0) .reservedField (.rfetch s d)
  | 1 => .ok (.bfx (fld w 26 6) (fld w 20 6) s d)
  | 2 => accept (fld w 25 7 == 0) .reservedField (.swait (fld w 20 5) s d)
  | 3 => accept (fld w 20 12 == 0) .reservedField (.disp s d)
  | _ => .error .reservedCode

/-- R3: a word from its four bytes, least significant first. -/
def wordOfBytes (b0 b1 b2 b3 : Byte) : W32 := b3 ++ b2 ++ b1 ++ b0

/-- The four bytes of a word in ascending address order (R3). -/
def bytesOfWord (w : W32) : List Byte := [fld w 0 8, fld w 8 8, fld w 16 8, fld w 24 8]

/-- The decoder over a list of bytes: one control-stream instruction and the bytes after it. -/
def decodeBytes : List Byte → Except DecodeError (Instr × List Byte)
  | b0 :: b1 :: b2 :: b3 :: rest =>
    match decodeControl (wordOfBytes b0 b1 b2 b3) with
    | .ok i => .ok (i, rest)
    | .error e => .error e
  | _ => .error .short

/-- R74 and R395 share one word length and no field tells the two kinds of core apart: a word that the
Xalholt decoder accepts is read as a management core's (A5, DESIGN CHOICE). -/
def isXalholt (w : W32) : Bool :=
  match decodeXalholt w with
  | .ok _ => true
  | .error _ => false

/-- The instruction this decoder reads from a word numbered as spec/opcode_table.json numbers it. -/
def decodeTableWord (nbits w : Nat) : Option Instr :=
  if nbits ≠ 32 ∨ 2 ^ 32 ≤ w then none
  else
    let v := BitVec.ofNat 32 w
    if isXalholt v then (decodeXalholt v).toOption
    else match decodeBytes (bytesOfWord v) with
    | .ok (i, _) => some i
    | .error _ => none

/-- The word of a well-formed instruction (R72 to R80, R395); the device's own events have none. -/
def encode : Instr → Option W32
  | .add d a b s w => some (rr 0x00 d a b 0 (modSW s w))
  | .sub d a b s w => some (rr 0x00 d a b 1 (modSW s w))
  | .and d a b => some (rr 0x00 d a b 2 0)
  | .or d a b => some (rr 0x00 d a b 3 0)
  | .xor d a b => some (rr 0x00 d a b 4 0)
  | .shl d a b w => some (rr 0x00 d a b 5 (modSW false w))
  | .shr d a b w => some (rr 0x00 d a b 6 (modSW false w))
  | .sra d a b w => some (rr 0x00 d a b 7 (modSW false w))
  | .mul d a b s w => some (rr 0x00 d a b 8 (modSW s w))
  | .mulh d a b => some (rr 0x00 d a b 9 0)
  | .mulhz d a b => some (rr 0x00 d a b 10 0)
  | .div d a b => some (rr 0x00 d a b 11 0)
  | .divz d a b => some (rr 0x00 d a b 12 0)
  | .rem d a b => some (rr 0x00 d a b 13 0)
  | .remz d a b => some (rr 0x00 d a b 14 0)
  | .min d a b => some (rr 0x00 d a b 15 0)
  | .max d a b => some (rr 0x00 d a b 16 0)
  | .minz d a b => some (rr 0x00 d a b 17 0)
  | .maxz d a b => some (rr 0x00 d a b 18 0)
  | .slt d a b => some (rr 0x00 d a b 19 0)
  | .sltz d a b => some (rr 0x00 d a b 20 0)
  | .seq d a b => some (rr 0x00 d a b 21 0)
  | .sne d a b => some (rr 0x00 d a b 22 0)
  | .clz d a => some (rr 0x00 d a 0 23 0)
  | .popc d a => some (rr 0x00 d a 0 24 0)
  | .addi d a i => some (ri 0x01 d a i)
  | .andi d a i => some (ri 0x02 d a i)
  | .ori d a i => some (ri 0x03 d a i)
  | .xori d a i => some (ri 0x04 d a i)
  | .shli d a n => some (ri 0x05 d a ((0 : BitVec 2) ++ (0 : BitVec 8) ++ n))
  | .shri d a n => some (ri 0x05 d a ((1 : BitVec 2) ++ (0 : BitVec 8) ++ n))
  | .srai d a n => some (ri 0x05 d a ((2 : BitVec 2) ++ (0 : BitVec 8) ++ n))
  | .slti d a i => some (ri 0x06 d a i)
  | .lui d i => some (jl 0x07 d i)
  | .ldb d a i => some (ri 0x08 d a i)
  | .ldh d a i => some (ri 0x09 d a i)
  | .ldw d a i => some (ri 0x0A d a i)
  | .ldd d a i => some (ri 0x0B d a i)
  | .ldbz d a i => some (ri 0x0C d a i)
  | .ldhz d a i => some (ri 0x0D d a i)
  | .ldwz d a i => some (ri 0x0E d a i)
  | .stb d a i => some (ri 0x10 d a i)
  | .sth d a i => some (ri 0x11 d a i)
  | .stw d a i => some (ri 0x12 d a i)
  | .std d a i => some (ri 0x13 d a i)
  | .stq d a i => some (ri 0x14 d a i)
  | .ldq d a i => some (ri 0x15 d a i)
  | .bEq a b o => some (br 0x16 0 a b o)
  | .bNe a b o => some (br 0x16 1 a b o)
  | .bLt a b o => some (br 0x16 2 a b o)
  | .bGe a b o => some (br 0x16 3 a b o)
  | .bLtz a b o => some (br 0x16 4 a b o)
  | .bGez a b o => some (br 0x16 5 a b o)
  | .jal d i => some (jl 0x17 d i)
  | .jr d a i => some (ri 0x18 d a i)
  | .loop l a n => some (lp 0x19 l a n)
  | .loopi l c n => some (lpi 0x1A l c n)
  | .sceneRun s => some (rr 0x1C 0 0 0 0 ((0 : BitVec 3) ++ s))
  | .sceneLoad a s => some (rr 0x1C 0 a 0 1 ((0 : BitVec 3) ++ s))
  | .sceneWait s => some (rr 0x1C 0 0 0 2 ((0 : BitVec 3) ++ s))
  | .sceneSwap s => some (rr 0x1C 0 0 0 3 ((0 : BitVec 3) ++ s))
  | .sceneGate a o => some (rr 0x1C 0 a 0 4 ((0 : BitVec 4) ++ BitVec.ofBool o))
  | .sceneCurt => some (rr 0x1C 0 0 0 5 0)
  | .sceneMark a => some (rr 0x1C 0 a 0 6 0)
  | .cmdPack a b c => some (rr 0x1D 0 a b 0 (c ++ (0 : BitVec 2)))
  | .cmdIssue c => some (rr 0x1D 0 0 0 1 (c ++ (0 : BitVec 2)))
  | .cmdAppend a c => some (rr 0x1D 0 a 0 2 (c ++ (0 : BitVec 2)))
  | .cmdSeqw a b => some (rr 0x1D 0 a b 3 0)
  | .fenceQ a => some (rr 0x1E 0 a 0 0 0)
  | .fenceS s => some (rr 0x1E 0 0 0 1 ((0 : BitVec 2) ++ s))
  | .aadd d a b w => some (rr 0x1F d a b 0 (BitVec.ofBool w ++ (0 : BitVec 4)))
  | .aand d a b w => some (rr 0x1F d a b 1 (BitVec.ofBool w ++ (0 : BitVec 4)))
  | .aor d a b w => some (rr 0x1F d a b 2 (BitVec.ofBool w ++ (0 : BitVec 4)))
  | .axor d a b w => some (rr 0x1F d a b 3 (BitVec.ofBool w ++ (0 : BitVec 4)))
  | .amin d a b w => some (rr 0x1F d a b 4 (BitVec.ofBool w ++ (0 : BitVec 4)))
  | .amax d a b w => some (rr 0x1F d a b 5 (BitVec.ofBool w ++ (0 : BitVec 4)))
  | .aminz d a b w => some (rr 0x1F d a b 6 (BitVec.ofBool w ++ (0 : BitVec 4)))
  | .amaxz d a b w => some (rr 0x1F d a b 7 (BitVec.ofBool w ++ (0 : BitVec 4)))
  | .aswap d a b w => some (rr 0x1F d a b 8 (BitVec.ofBool w ++ (0 : BitVec 4)))
  | .acas d a b w => some (rr 0x1F d a b 9 (BitVec.ofBool w ++ (0 : BitVec 4)))
  | .taskSpawn a => some (rr 0x20 0 a 0 0 0)
  | .taskStamp a => some (rr 0x20 0 a 0 1 0)
  | .taskDone => some (rr 0x20 0 0 0 2 0)
  | .barArrive b => some (rr 0x21 0 0 0 0 b)
  | .barWait b => some (rr 0x21 0 0 0 1 b)
  | .evtSig e => some (rr 0x21 0 0 0 2 ((0 : BitVec 1) ++ e))
  | .evtWait e => some (rr 0x21 0 0 0 3 ((0 : BitVec 1) ++ e))
  | .barInit a b => some (rr 0x21 0 a 0 4 b)
  | .cue a b i e => some (cueWord a b i e)
  | .tidDef a n => some (ri 0x23 0 a ((0 : BitVec 2) ++ (0 : BitVec 6) ++ n))
  | .tidGet a n => some (ri 0x23 0 a ((1 : BitVec 2) ++ (0 : BitVec 6) ++ n))
  | .tidDrop n => some (ri 0x23 0 0 ((2 : BitVec 2) ++ (0 : BitVec 6) ++ n))
  | .opmClaim d a b => some (rr 0x24 d a b 0 0)
  | .opmRelease d a b => some (rr 0x24 d a b 1 0)
  | .ctxNew d a => some (rr 0x25 d a 0 0 0)
  | .ctxGrant a b => some (rr 0x25 0 a b 1 0)
  | .ctxRevoke a => some (rr 0x25 0 a 0 2 0)
  | .ctxEnter a => some (rr 0x25 0 a 0 3 0)
  | .ctxExit => some (rr 0x25 0 0 0 4 0)
  | .ctxStat d a => some (rr 0x25 d a 0 5 0)
  | .trap n => some (rr 0x26 0 0 0 0 n)
  | .eret => some (rr 0x26 0 0 0 1 0)
  | .halt => some (rr 0x26 0 0 0 2 0)
  | .wait a => some (rr 0x26 0 a 0 3 0)
  | .mfs d n => some (ri 0x27 d 0 n)
  | .mts a n => some (ri 0x28 0 a n)
  | .cnt d i => some (ri 0x29 d 0 i)
  | .rfetch s d => some (xr 0 0 s 0 d)
  | .bfx l p s d => some (xr l p s 1 d)
  | .swait t s d => some (xr 0 ((0 : BitVec 1) ++ t) s 2 d)
  | .disp s d => some (xr 0 0 s 3 d)
  | .commandLeavesIssueBuffer _ => none
  | .chainEntryRead _ => none
  | .rdLin _ => none
  | .rdGath _ => none
  | .wrLin _ => none
  | .wrScat _ => none
  | .rdOpm _ => none
  | .wrLog _ => none
  | .cp _ => none
  | .cp2d _ => none
  | .fill _ => none
  | .bcast _ => none
  | .colRed _ => none
  | .colGath _ => none
  | .colBar _ => none
  | .sig _ => none
  | .link _ => none
  | .qfence _ => none
  | .scale _ => none
  | .commandCompletion _ => none
  | .readStreamToken _ => none
  | .writeStreamToken _ => none
  | .streamCloseAtWrite _ => none
  | .pipelineFiring _ => none
  | .genStreamClose _ => none
  | .mm _ => none
  | .mmSp _ => none
  | .accClr _ => none
  | .drain _ => none
  | .sat _ => none
  | .zeroSlotRequest _ _ => none
  | .markerPassage _ _ => none
  | .scaleTokenForward _ _ => none
  | .scaleTokenLatch _ _ => none
  | .regionEntryToken _ _ => none
  | .hedge _ => none
  | .fusedTileDrop _ => none
  | .misroutedTokenDrop _ => none
  | .markInsertion _ => none
  | .cutComplete _ => none
  | .rollback _ _ _ => none
  | .stallWatchdog _ => none
  | .pageFaultDrain _ => none
  | .curtainComplete _ => none
  | .bankWake _ _ => none
  | .slotStroke _ _ => none
  | .symbolStroke _ _ _ => none
  | .standbyStrokeTakeover _ _ => none
  | .powerIntervalBoundary _ _ _ => none
  | .atomicEngineService _ _ => none
  | .taskBecomesOldest _ => none
  | .taskCommit _ => none
  | .pageTableWalk _ _ _ => none
  | .shootdownComplete _ _ _ => none
  | .pageAnswer _ _ => none
  | .submissionDoorbell _ => none
  | .launchRecord _ => none
  | .launchAdmission _ _ => none
  | .tileAcknowledgement _ _ => none
  | .graphRecord _ => none
  | .cancelRecord _ => none
  | .queueResetRecord _ => none
  | .nodeDispatch _ _ => none
  | .nodeCompletion _ _ => none
  | .prefault _ _ => none
  | .crc _ _ => none
  | .qreset _ _ => none
  | .note _ _ => none
  | .schedulingPeriodBoundary _ => none
  | .quantumBoundary _ => none
  | .reflectionRecord _ => none
  | .swaitWake _ _ => none
  | .swaitTimeout _ _ => none
  | .dispatchStart _ _ => none
  | .dispatchCurtain _ _ => none
  | .dispatchRestore _ _ => none
  | .dispatchChain _ _ => none
  | .xtimecmpWrite _ _ _ => none
  | .timerExpiry _ _ => none
  | .heartbeatSend _ => none
  | .heartbeatArrival _ => none
  | .heartbeatMiss _ => none
  | .fenceHoldExpiry _ => none
  | .adoption _ => none
  | .powerCapRequest _ => none
  | .bandwidthShareRequest _ _ _ => none
  | .timeSourceLoss => none
  | .timeSourceReturn => none
  | .tamper => none
  | .supplyGlitch => none
  | .alarmRelease _ => none
  | .fuseRequest _ _ _ _ _ => none
  | .getVersion _ => none
  | .getCapabilities _ => none
  | .negotiateAlgorithms _ _ _ => none
  | .getDigests _ => none
  | .getCertificate _ => none
  | .challenge _ _ => none
  | .getMeasurements _ _ _ => none
  | .imageAdmission _ _ _ => none
  | .verifyRequest _ _ => none
  | .relocationRequest _ _ _ => none
  | .loadRequest _ _ => none
  | .configClear _ => none
  | .configWrite _ => none
  | .sceneLoadComplete _ _ => none
  | .scrub _ _ => none
  | .packageReset _ _ => none
  | .fabricDieReset _ => none
  | .ethFrame _ _ _ => none
  | .seqCommand _ => none
  | .illegalInstruction _ => none
  | .dieLinkDown _ _ => none
  | .dieLinkUp _ _ => none
  | .hostAttach => none
  | .hostPortAccess _ _ _ _ _ => none
  | .partitionChange _ _ => none
  | .virtualDeviceCreate _ _ _ _ _ _ _ _ => none
  | .controlDieFailure _ => none

end Sys2Proof
end

