-- ==== Sys2Proof/Config.lean ====
section
/-! DEFINITION. What the manual leaves open. Each constant is opaque: nothing can evaluate it and no proof
can learn a value of it (A8, DESIGN CHOICE). Cryptographic functions that the manual takes from other standards stand here
too (A9, PRESUMED). -/
namespace Sys2Proof.Config

/-- A value the manual leaves open, one for each use; State.fresh numbers the uses (A8, DESIGN CHOICE). -/
opaque freeNat : Nat → Nat

/-- Boolean form of a free value (A8, DESIGN CHOICE). -/
opaque freeBool : Nat → Bool

/-- R382, R417, R429: SHA-384 of FIPS 180-4, 48 bytes, by reference (A9, PRESUMED). -/
opaque sha384 : List Byte → List Byte

/-- R418 step 2: ECDSA P-384 verification of a signature over a digest under a public key (A9, PRESUMED). -/
opaque ecdsaVerify : List Byte → List Byte → List Byte → Bool

/-- R418 step 3: LMS verification of a signature over a message under a public key (A9, PRESUMED). -/
opaque lmsVerify : List Byte → List Byte → List Byte → Bool

/-- R421: the response bytes of SPDM 1.2 to a request, given its code, the measurement blocks named and
the nonce; the format is SPDM's, by reference (A9, PRESUMED). -/
opaque spdmResponse : Nat → List (List Byte) → List Byte → List Byte

/-- R420, R421: the boot ROM of a control die, whose contents come from outside (A9, PRESUMED). -/
opaque bootRom : Nat → List Byte

/-- R419: the signed bytes of a fuse request; their form is left open (A9, PRESUMED). -/
opaque fuseForm : Bool → Nat → Bool → List Byte → List Byte

/-- R421: the signature that the device identity key of a control die makes over a response (A9, PRESUMED). -/
opaque identitySign : Nat → List Byte → List Byte

/-- R382, R422: the AES-256 keys that key stores hold, by number (A9, PRESUMED). -/
opaque aesKey : Nat → List Byte

/-- R382: AES-256-GCM of SP 800-38D, by reference: byte `j` of the ciphertext, and of the tag, of a plaintext under a key, a nonce and
additional data (A9, PRESUMED). -/
opaque gcmByte : List Byte → List Byte → List Byte → List Byte → Nat → Byte
opaque gcmTagByte : List Byte → List Byte → List Byte → List Byte → Nat → Byte

/-- R380: what a chunk of a green room holds at an offset, where the manual lays out no byte (A140, DESIGN CHOICE). -/
opaque roomByte : Nat → Nat → Nat → Byte

/-- R410: the value of a share request, and the partition, stack and share of a value; the manual lays out none (A106, DEDUCED). -/
opaque shareValue : Nat → Nat → Nat → Nat
opaque shareOf : Nat → Nat × Nat × Nat

/-- R403: byte `j` of an answer entry that holds a tag and a status; the manual gives neither a place (A86, DESIGN CHOICE). -/
opaque answerByte : Nat → Bool → Nat → Byte

/-- R15: the set of a translation slice in which a page of a context is held (A19, DESIGN CHOICE). -/
opaque sliceSet : Nat → Nat → Nat

end Sys2Proof.Config
end

