-- ==== Sys2Proof/Machine/State.lean ====
section
/-! DEFINITION. The state of the AH8 package, as plain data, and the state after package reset. Each field
cites the rule that names it; INVENTORY.md lists them all with their reset values. -/
namespace Sys2Proof.Machine

/-- Why the machine stops with a fault. -/
inductive Fault where
  /-- Raised by a management core's access, or by firmware reading a ring or block, at a physical address
  that R280 says does not exist. Safe: the manual states no result there. -/
  | unpopulated (pa : Nat)
deriving DecidableEq, Repr

/-- Why an instruction has no meaning. -/
inductive Refusal where
  /-- Raised by an arm of exec whose instruction has no meaning yet. Safe. -/
  | notModelled (mnemonic : String)
  /-- Raised by a management core at a word that is neither Xalholt nor RV64I, at a CSR access that names another register than
  those it has here, and at a load of poisoned memory: the manual takes the base set from another document and names no profile
  of it, and it gives a core no exception for poison (A20, PRESUMED). Safe. -/
  | baseIsa (word : W32)
deriving DecidableEq, Repr

/-- R2, R3: byte-addressed storage, as (address, byte) pairs with rising addresses and no zero byte; an
address not listed reads zero (A2, DESIGN CHOICE). -/
abbrev Mem := List Host.Cell

/-! ## Tokens, links and tiles -/

/-- R54, R55: a token, its header's fields and its sixteen lanes. -/
structure Token where
  ctl : Bool
  sc : BitVec 2
  mark : Bool
  kind : BitVec 4
  arg : Byte
  lv : BitVec 16
  lanes : Lanes
deriving DecidableEq, Repr

/-- Where a branch of a circuit ends (R66, R98, R386, R430); `away` is a region that is switched out (R371). -/
inductive Dest where
  | input (t : TileId) (i : Nat)
  | hedge (recv : TileId) (dir : Nat) (circ : Nat)
  | listed (t : TileId)
  | away (t : TileId)
  | off
deriving DecidableEq, Repr

/-- R58, R66: one branch of the circuit that leaves output `out` of `src` in a scene. -/
structure Link where
  src : TileId
  out : Nat
  scene : Nat
  dest : Dest
deriving DecidableEq, Repr

/-- A token in a tile buffer: the cycle from which it is valid and the branch that brought it (R58). `credit`
is false for a marker that stands at a region entry (R262), and `entered` for a token that has not yet taken
the scene of the region it enters (R241); `bad` tells that its header or payload fails the parity of the tile buffer (R56). -/
structure BufTok where
  tok : Token
  valid : Nat
  link : Link
  hops : Nat
  credit : Bool
  entered : Bool
  bad : Bool
deriving DecidableEq, Repr

/-- A token that an element has produced and that is placed from cycle `due` (R61, R170, R189, R199). `paid`
says that its credits were taken when it was produced; others take them when they are placed (R186, R262). -/
structure PendingOut where
  due : Nat
  out : Nat
  scene : Nat
  tok : Token
  paid : Bool
deriving DecidableEq, Repr

/-- R363, R367: a context to which drops are charged: its number, parent, partition and depth, which stay known when it has gone. -/
structure Offender where
  ctx : Nat
  parent : Option Nat
  part : Nat
  depth : Nat
deriving DecidableEq, Repr

/-- A token on its way to a place that drops it (R367, R386, R430), with the context that answers for it: at a hedge that of the act
which owns the sending tile, and elsewhere that of the act which has placed it. -/
structure DropTok where
  due : Nat
  who : Offender
  link : Link
  tok : Token
deriving DecidableEq, Repr

/-- R367: what an interval counts hedge drops by: the offender, the die of its producer, and the direction and circuit at the hedge. -/
structure HedgeAt where
  who : Offender
  die : Nat
  dest : Dest
deriving DecidableEq, Repr

/-- R95: the words of one scene block as a tile holds them. -/
structure TileCfg where
  role : Nat
  node : Bool
  stages : List Dbl
  nodeWord : Dbl
  consts : List W32
  ports : List Dbl
  routes : List W32
  init : List Lanes
deriving DecidableEq, Repr

/-- R188: the two scale latches of an input; `second` says that a scale token arriving next, with no data
token between, sets `hi` only. -/
structure Latch where
  lo : Byte
  hi : Byte
  second : Bool
deriving DecidableEq, Repr

/-- R164, R185 to R188: what a pipeline keeps for one scene. -/
structure SceneSt where
  l : List Lanes
  f : Nat
  turn : Nat
  ended : Bool
  closes : List Nat
  latches : List Latch
deriving DecidableEq, Repr

/-- R46, R48, R193: the state of a matrix node. `busy` is the first cycle in which the products of
its last firing have been applied (R199), `oneShot` the scene whose one-shot word a scene-end curtain has set off (R197), and `reading` gives the operand
slots that its firings in flight read, each with the cycle up to which they do (R200). -/
structure NodeSt where
  acc : List Int
  nan : BitVec 32
  lsat : Bool
  asat : Bool
  aund : Bool
  latch : Latch
  busy : Nat
  oneShot : Option Nat
  reading : List (Nat × Nat)
deriving DecidableEq, Repr

/-- R283, R285: something that a command has taken and not yet stored: an element's code with its index, or a scale
with its block. -/
structure HeldElem where
  scale : Bool
  j : Nat
  v : W32
deriving DecidableEq, Repr

/-- The command at the head of a queue while it runs: the cycle it began, elements placed or taken, index lanes taken,
scale latch, scale tokens placed ahead of the next data token, its outputs, whether a stream close has been placed or
has ended it, whether every access has been performed, whether a collective has aborted, the address of an access
withheld, and what it has taken and not stored, by token (R211 to R223, R228, R283, R285). -/
structure Active where
  began : Nat
  pos : Nat
  idx : Nat
  sigma : Byte
  scaled : Nat
  outs : List Nat
  ending : Bool
  finished : Bool
  aborted : Bool
  withheld : Option Dbl
  saved : List (List HeldElem)
deriving DecidableEq, Repr

/-- A command in a queue: its serial number, its quad, the act and task that placed it, the address R206 gives
it, whether a chain brought it, the graph node whose chain it belongs to (R345), and the serial numbers of the
commands that must complete before it begins (R141, R233). `again` tells that a rollback performs anew a command that
had completed after its cut, which completes without raising the sequence number (R223, R376). `unread` tells a chained command that
its server has still to read (R209), `gone` that the act that placed it has ended (R206), and `win` is the scratch window that its
region then had (R389). -/
structure QEntry where
  no : Nat
  cmd : Quad
  act : Nat
  ctx : Nat
  stamp : Nat
  addr : Dbl
  chained : Bool
  node : Option (Nat × Nat)
  joins : List Nat
  again : Bool
  unread : Bool
  gone : Bool
  win : List Nat
deriving DecidableEq, Repr

/-- R223: the position of a queue: how many of its stream commands have completed, the position of the active one,
whether that one is a read, and the binding of R221. -/
structure CmdPos where
  q : QueueId
  fin : Nat
  active : Option Active
  rd : Bool
  bcast : Option (BitVec 4 × Option Nat)
deriving DecidableEq, Repr

/-- R164, R193, R223: all that a mark copies to the shadow of one tile. -/
structure ElemSt where
  scenes : List SceneSt
  node : NodeSt
  pos : List CmdPos
deriving DecidableEq, Repr

/-- R195, R275: an operand slot, its owner (an act), the context that last released it, its bytes and its
scale fields SB0 to SB3. `poison` lists the granules of 8 bytes that a scrub has found uncorrectable (R427). -/
structure OpSlot where
  owner : Option Nat
  lastCtx : Option Nat
  bytes : Mem
  sb : List Byte
  poison : List Nat
deriving DecidableEq, Repr

/-- R267: the use of a stream bank. -/
inductive BankUse where
  | gated
  | free
  | window (ctx : Nat)
  | wings (ctx : Nat)
deriving DecidableEq, Repr

/-- R267, R274, R427: a stream bank. `wake` is the cycle at which a woken bank is ready, and `poison` lists its
uncorrectable granules of 8 bytes. -/
structure Bank where
  bank : Nat
  use : BankUse
  bytes : Mem
  wake : Nat
  poison : List Nat
deriving DecidableEq, Repr

/-- One tile (R12, R13): its scene slots, elements, buffers, outgoing tokens, the cycles from which its pipeline, its
node and each port (R212, inputs then outputs) may fire again, shadow copies (R373), replay
store (R374: input, the number of the mark in flight behind which the entry delivered the token, if it did, and the token), operand
slots (R195), partition tag (R366), and the scene slots with a faulty configuration cell (R442). `lastPipe` and `lastNode` are the cycles of
the last firings (R169, R199). `parity` lists the configuration granules whose parity fails, by slot and byte offset (R259, R273); `fired` and
`touched` are the dirty bits of its state and of its buffers, and `written` those of its operand slots (R381). -/
structure Tile where
  cfg : List (Option TileCfg)
  parity : List (Nat × Nat)
  st : ElemSt
  inbuf : List (List BufTok)
  outq : List PendingOut
  pipeNext : Nat
  nodeNext : Nat
  portNext : List Nat
  lastPipe : Option Nat
  lastNode : Option Nat
  shadow : Option ElemSt
  shadowNew : Option ElemSt
  shadowBad : Bool
  replay : List (Nat × Option Byte × Token)
  slots : List OpSlot
  written : List Nat
  tag : Option Nat
  weak : List Nat
  fired : Bool
  touched : Bool
deriving DecidableEq, Repr

/-- R248, R253: a channel that leaves the region of an act: its circuit, its slot count, its way from its producer tile, a direction and
a circuit number a hop, and its h at a time when its way is not known. [log 117 DEDUCED] -/
structure Channel where
  act : Nat
  link : Link
  slots : Nat
  path : List (Nat × Nat)
  hops : Nat
deriving DecidableEq, Repr

/-- R57: one direction of a physical connection: the tile that sends, and the direction in which it does. -/
structure Wire where
  t : TileId
  dir : Nat
deriving DecidableEq, Repr

/-- R57: a token of circuit `circ`, placed in cycle `from_`, on a connection in cycle `at_`. -/
structure Crossing where
  wire : Wire
  circ : Nat
  at_ : Nat
  from_ : Nat
deriving DecidableEq, Repr

/-- The fabric (R12 to R17). `flights` holds the cycles in which a connection moves a token that has been placed, `asked` those that a
circuit has asked for and not been given, and `turns` the circuit that each connection granted last (R57). `channels` are the channels
between regions (R253), `points` gives the operating point of a quadrant (R316), `repair` is the repair map (R429), `bad` names the
elements with an uncorrectable error since the boot, in the form of its words (R431), `hbmPoison` the poisoned granules of 32 bytes
of HBM4 and `lpPoison` those of 8 bytes of LPDDR5X (R426, R427), and `badShadows` the act contexts whose prompter's shadow or replay log has an
uncorrectable error (R378, R426). `fed` holds the inputs at which circuits of acts that do not stand on their tiles end, each with its producer's act, or with
none once that act has ended (R241). -/
structure Fabric where
  tiles : List (TileId × Tile)
  banks : List (Nat × Bank)
  windows : List (Link × Nat)
  returns : List (Nat × Link)
  requests : List (Link × Nat)
  flights : List Crossing
  asked : List Crossing
  turns : List (Wire × Nat)
  drops : List DropTok
  hedgeCount : List (HedgeAt × Nat)
  channels : List Channel
  fed : List (Option Nat × TileId × Nat)
  points : List (Nat × Nat)
  repair : List W32
  bad : List W32
  hbmPoison : List Nat
  lpPoison : List Nat
  badShadows : List Nat
deriving DecidableEq, Repr

/-! ## Engines, queues and translation -/

/-- R201, R336: the server a context queue is bound to. -/
inductive Server where
  | agen (die : Nat) (port : Nat)
  | copy (die : Nat)
  | coll (die : Nat)
deriving DecidableEq, Repr

/-- A command queue with its sequence record (R202, R205), chain (R208), the graph node whose chain it serves
(R345) and its BCAST binding (R221). `recBound` tells that a record is bound. `owner` is the act, context and task of the last append, and `dropped` tells
that a reset came while the active command ran (R340). `fin` counts the stream commands that have completed, and
`past` holds those that a rollback would perform again, with their numbers in that count (R223). -/
structure Queue where
  id : QueueId
  server : Option Server
  recAddr : Dbl
  recBound : Bool
  entries : List QEntry
  active : Option Active
  dropped : Bool
  owner : Nat × Nat × Nat
  node : Option (Nat × Nat)
  seq : Nat
  state : Nat
  cause : Byte
  arg : Dbl
  abort : Bool
  chain : Option Dbl
  head : Dbl
  bcast : Option (BitVec 4 × Option Nat)
  fin : Nat
  past : List (Nat × QEntry)
  collNo : Nat
deriving DecidableEq, Repr

/-- R227: a range of the copy scoreboard, as 64-byte lines. -/
structure ScoreRange where
  q : QueueId
  ctx : Nat
  write : Bool
  space : Bool
  lo : Nat
  hi : Nat
deriving DecidableEq, Repr

/-- R228, R384: one member's part in a collective; `opc` is 0 once it has aborted, and `ready` tells that its contribution
stands in its engine's buffer. -/
structure CollPart where
  vdev : Nat
  grp : Nat
  no : Nat
  q : QueueId
  rank : Nat
  opc : Nat
  n : Nat
  cnt : Nat
  op : Nat
  root : Bool
  start : Nat
  fmt : Nat
  ready : Bool
  done : Bool
  values : List W32
deriving DecidableEq, Repr

/-- Who waits for a page (R125, R207, R284, R449): a prompter, a stream of a queue, or the scheduler for a
context's ring. -/
inductive Waiter where
  | act (id : Nat)
  | queue (q : QueueId)
  | sched (ctx : Nat)
deriving DecidableEq, Repr

/-- R361, R403: an entry of the page-request queue; `passed` tells that the page service's ring has taken it. -/
structure PageReq where
  tag : Nat
  ctx : Nat
  va : Dbl
  page : Nat
  passed : Bool
  kind : Nat
  die : Nat
  tile : Nat
  act : Nat
  vdev : Nat
  reserved : Bool
  posted : Nat
  waiters : List Waiter
deriving DecidableEq, Repr

/-- R282: an entry of a translation slice. -/
structure SliceEntry where
  die : Nat
  slice : Nat
  ctx : Nat
  page : Nat
  rel : Nat
  w : Bool
  x : Bool
deriving DecidableEq, Repr

/-- R144: the operation of an atomic. -/
inductive AtomicOp where
  | add | and | or | xor | min | max | minz | maxz | swap | cas
deriving DecidableEq, Repr

/-- R145, R293: a request waiting at an atomic engine, or an atomic deferred by a task (R149), with its virtual address, by which the
range scoreboard checks it (R227). -/
structure AtomReq where
  die : Nat
  blk : Nat
  stamp : Nat
  port : Nat
  srcDie : Nat
  srcBlk : Nat
  act : Nat
  ctx : Nat
  op : AtomicOp
  w : Bool
  va : Dbl
  pa : Nat
  operand : Dbl
  expected : Dbl
deriving DecidableEq, Repr

/-- Queues, engines, slices and page requests. `collSeq` counts the collective commands of a virtual device, group
and rank that have reached the head of a queue (R228), `serial` numbers commands and tasks, and `portNow` is the cycle in which a port
last performed elements, and that port (R271, R272). -/
structure Engines where
  queues : List (QueueId × Queue)
  score : List ScoreRange
  coll : List CollPart
  collSeq : List (Nat × Nat)
  pages : List PageReq
  nextTag : Nat
  refused : List (Waiter × Nat)
  slices : List SliceEntry
  atoms : List AtomReq
  serial : Nat
  portNow : Nat × Nat
  downs : List (Nat × Nat × Nat)
deriving DecidableEq, Repr

/-! ## Acts and contexts -/

/-- R119: the loop bounds of one level. -/
structure LoopReg where
  count : W32
  len : Byte
  start : Byte
  on : Bool
deriving DecidableEq, Repr

/-- R148: the registers a task checkpoint holds, and the contexts that the act had entered. -/
structure Checkpoint where
  ctxStack : List Nat
  acpc : Dbl
  g : Vector Dbl 32
  c : Vector Quad 8
  lbase : Dbl
  lb : Vector LoopReg 3
  lc : Vector W32 3
deriving DecidableEq, Repr

/-- R256: the states of a scene slot. -/
inductive SlotSt where
  | empty | loading | loaded | inForce | retiring
deriving DecidableEq, Repr

/-- R255, R443: an outstanding load of a scene slot: the image, its number, and whether it has begun in some tile. -/
structure LoadJob where
  image : Dbl
  no : Nat
  begun : Bool
deriving DecidableEq, Repr

/-- Where the loader routine of R443 stands: its first CLEAR, a WRITE, the CLEAR after a refusal, or its end. -/
inductive LoadPhase where
  | clear | write | undo | done
deriving DecidableEq, Repr

/-- R443: a run of the loader routine on a fabric die: the act, slot and number of the load, the image's physical
address, the next block's offset and the blocks left, the next tag, the tile of the outstanding WRITE, and the code. -/
structure LoadRun where
  die : Nat
  act : Nat
  slot : Nat
  no : Nat
  image : Nat
  off : Nat
  left : Nat
  tag : Nat
  tile : Nat
  phase : LoadPhase
  code : Nat
  dead : Bool
deriving DecidableEq, Repr

/-- R237: a scene slot of a region, with the load error kept for SCENE.WAIT (R133). -/
structure SceneSlot where
  st : SlotSt
  image : Dbl
  ends : Nat
  error : Option (Byte × Dbl)
  job : Option LoadJob
deriving DecidableEq, Repr

/-- R257: elements that have still to pass the curtain numbered `num` of the scene `tag` before their tiles release a scene; `num` is
none until the region carries the curtain that a SCENE.RUN waits for. `counts` says that the end is a pending one (R262). -/
structure EndWait where
  scene : Nat
  num : Option Byte
  tag : Nat
  counts : Bool
  elems : List (TileId × Element)
  sinks : List (TileId × Element)
deriving DecidableEq, Repr

/-- A curtain or mark on its way through a region (R136, R370, R373): its number and the sinks that have
not consumed it. `reason` numbers the reasons of R436 for a switch-out; SCENE.CURT is 4. `gates` are those that a
restore opens again (R372), and `began` is the cycle of the insertion (R263). -/
structure MarkerRun where
  num : Byte
  sinks : List (TileId × Element)
  reason : Nat
  gates : Dbl
  began : Nat
deriving DecidableEq, Repr

/-- R139, R141: what an entry of the issue buffer does when it leaves. -/
inductive IssueKind where
  | issue
  | append (desc : Dbl)
  | join (mask : Dbl)
deriving DecidableEq, Repr

/-- R139, R149: an entry of the issue buffer, with the address of its word and the task it belongs to. `held`
tells that trap_async holds it until ERET (R208), and `late` that an append has missed or failed in a drain (R287). -/
structure IssueEntry where
  kind : IssueKind
  cmd : Quad
  addr : Dbl
  ctx : Nat
  stamp : Nat
  held : Bool
  late : Bool
deriving DecidableEq, Repr

/-- R141: a join that has left the issue buffer: the context's root, the queues it names and the serial numbers
of the act's earlier commands to them. -/
structure Fence where
  root : Nat
  mask : Dbl
  waits : List Nat
deriving DecidableEq, Repr

/-- R321: a cue's window: stated onset cycle if known (base 0) or waiting for a stroke (base 1) from which it lies
`off` cycles, the first interval it may start in, its start once fixed, its length and intensity, and intervals of delay. -/
structure CueWin where
  onset : Option Nat
  off : Nat
  floor : Nat
  start : Option Nat
  len : Nat
  intensity : Byte
  delay : Nat
deriving DecidableEq, Repr

/-- R375, R376: an effect recorded in the replay log, with its result: `cmd` tells a command placed from an
instruction, `used` says that a replay has taken it, and `pre` that the act had performed it before the mark in flight (R375). `ctx` and `stamp` name the task in which it was performed, whose re-run takes
its place (R299). -/
structure LogEntry where
  cmd : Bool
  value : Dbl
  used : Bool
  pre : Bool
  ctx : Nat
  stamp : Nat
deriving DecidableEq, Repr

/-- R110: what an instruction boundary of an act is, as a mark or a save records it. The undeclared energy of R322,
whose mean is exact, is `undeclPj` divided by `undeclDen`. -/
structure Regs where
  acpc : Dbl
  g : Vector Dbl 32
  c : Vector Quad 8
  lbase : Dbl
  lb : Vector LoopReg 3
  lc : Vector W32 3
  scrflt : Dbl
  scrMore : Bool
  scrWr : Bool
  scrV : Bool
  thrc : BitVec 16
  undeclPj : Nat
  undeclDen : Nat
  fdem : Bool
  faultPc : Dbl
  faultCode : Byte
  faultH : Bool
  faultArg : Dbl
  stamp : Dbl
deriving DecidableEq, Repr

/-- R237: the region state of an act. `armed` is the cycle in which SCENE.SWAP armed the swap (R265), and `quiet` tells that a curtain
of SCENE.CURT or of a switch-out has made the region quiescent (R136). -/
structure RegionSt where
  die : Nat
  x0 : Nat
  y0 : Nat
  w : Nat
  h : Nat
  bsel : Bool
  cur : Nat
  arm : Bool
  tgt : Nat
  slots : Vector SceneSlot 4
  gates : Dbl
  period : W32
  count : W32
  marker : Byte
  armed : Nat
  quiet : Bool
deriving DecidableEq, Repr

/-- Where an act stands: R115, R161, R370, R377. -/
inductive Life where
  | free
  | running
  | trapped (claimer : Option Nat)
  | halted
  | switchedOut
  | stopped
deriving DecidableEq, Repr

/-- R373, R377: the last complete cut and what was recorded for it; `nth` counts the act's marks. -/
structure Cut where
  num : Byte
  nth : Nat
  regs : Regs
  region : RegionSt
  issue : List IssueEntry
  fences : List Fence
  taskOpen : Bool
  taskDone : Bool
  ctx : Nat
  ctxStack : List Nat
  phases : List (Nat × Nat)
deriving DecidableEq, Repr

/-- An act context of a prompter (R110, R236, R237). `seqw` is the queue on which CMD.SEQW waits (R340), `evtw` the event bit on which
EVT.WAIT waits (R153), and `fenceS` holds the stream commands for which a FENCE.S in progress waits (R142). `taskDone` tells that
TASK.DONE was the last to end or open its task (R146). `marks` counts the marks that it has recorded (R303). `retried` holds the codes
that have been retried since the last cut (R377), `granted` is the last count its region was given (R318, R409), `mxDecl` the matrix
firings that a region switched out in the present interval had declared for it (R322), `cueRest` the intensity of cues that count to its
end (R324), `room` is the green room that a dispatch named (R401), `noCut` tells that the region has stopped for good (R378), and five
fields serve the watchdog (R379): cycles in a row that were stalled or excluded, the last stalled cycle, and what the present cycle
holds. `strokeDue` tells that a stroke waits for the next cycle of the quadrant's clock (R261). -/
structure Act where
  id : Nat
  life : Life
  regs : Regs
  region : RegionSt
  loopBuf : List (Dbl × W32)
  ctx : Nat
  ctxStack : List Nat
  issue : List IssueEntry
  fences : List Fence
  seqw : Option Nat
  evtw : Option Nat
  fenceS : Option (List Nat)
  taskOpen : Bool
  taskDone : Bool
  prevStamp : Nat
  phases : List (Nat × Nat)
  asyncTrap : List (Byte × Dbl)
  wingStall : Bool
  cues : List CueWin
  cueEnd : Nat
  ends : List EndWait
  curtain : Option MarkerRun
  cutRun : Option MarkerRun
  cut : Option Cut
  cutNew : Option Cut
  marks : Nat
  log : List LogEntry
  replay : Bool
  markDue : Nat
  retried : List Byte
  noCut : Bool
  pflim : Nat
  launch : Option Nat
  vreg : Nat
  room : Option Dbl
  parent : Option Nat
  root : Option Nat
  window : List Nat
  tokens : Nat
  granted : Nat
  mxFired : Nat
  mxEnergy : Nat
  mxDecl : Nat
  cueRest : Nat
  refused : Nat
  stalled : Nat
  lastStall : Option Nat
  refusing : Bool
  excluded : Bool
  progress : Bool
  strokeDue : Bool
deriving DecidableEq, Repr

/-- R277: a tensor identifier entry. -/
structure TensorEntry where
  base : Dbl
  d0 : W32
  d1 : W32
  d2 : W32
  s0 : Dbl
  s1 : Dbl
  s2 : Dbl
  scb : Dbl
  fmt : BitVec 4
  p : BitVec 3
  read : BitVec 2
  space : Bool
  spn : BitVec 6
  blk : Byte
  v : Bool
deriving DecidableEq, Repr

/-- R151: a barrier: participant count, phase and arrivals of the current phase. -/
structure Barrier where
  count : Nat
  phase : Nat
  arrived : Nat
deriving DecidableEq, Repr

/-- R288, R289, R299: a read or dirty range of a task; `act` is the act whose window maps its scratch offsets, `also` others whose
windows do (R291), and `chan` the output or input of the port that it came by. `due` tells an accumulator whose deposit waits for room
in the range log (R291). -/
structure Range where
  act : Nat
  also : List Nat
  write : Bool
  space : Bool
  lo : Nat
  hi : Nat
  src : Nat
  chan : Nat
  due : Bool
deriving DecidableEq, Repr

/-- R301, R303: a staged wing line: die, act that first wrote it, line address, staged bytes, and the marker number of the mark
interval of its first write, which is the `nth` of the act; `bad` holds its granules of 8 bytes with an uncorrectable error (R426). -/
structure WingLine where
  die : Nat
  act : Nat
  line : Nat
  bytes : List (Nat × Byte)
  mark : Byte
  nth : Nat
  bad : List Nat
deriving DecidableEq, Repr

/-- R295 to R299: a task of a commit domain. `no` numbers the tasks in the order they open; `parts` are the acts that have not ended their part; `checks`
holds the checkpoint of R148 of each act that opened or shares it; `accs` are the open accumulators of R289. -/
structure Task where
  no : Nat
  stamp : Nat
  act : Nat
  parts : List Nat
  step1 : Bool
  checks : List (Nat × Checkpoint)
  lines : List WingLine
  deferred : List AtomReq
  ranges : List Range
  accs : List Range
  aborts : Nat
deriving DecidableEq, Repr

/-- R352, R354: a context, with its descriptor's values, its commit domain and its counters. `revoking` tells that a
revoke of it is in progress (R357). -/
structure Ctx where
  id : Nat
  parent : Option Nat
  part : Nat
  depth : Nat
  revoking : Bool
  revoked : Bool
  lastFault : Byte
  ptroot : Nat
  fpol : Bool
  pflim : Nat
  mbase : Nat
  mbound : Nat
  qmask : Dbl
  tmask : BitVec 256
  tvec : Dbl
  rring : Dbl
  evb : Nat
  sring : Dbl
  portion : Nat
  floor : Nat
  floorSince : Option Nat
  rects : Vector W32 8
  fb : Nat
  fl : Nat
  ev : BitVec 16
  bars : Vector Barrier 32
  tids : List (Nat × TensorEntry)
  balance : Int
  tasks : List Task
  reserved : List Nat
  highest : Nat
  committed : Nat
  held : List (List Byte)
  saveCtr : Nat
  counters : List (Nat × Nat)
deriving DecidableEq, Repr

/-! ## Scheduler -/

/-- R254: an image of `len` bytes admitted to a context, presented at a virtual address and standing at physical
address `pa`. `script` tells a script, with the physical addresses of the staging images that the translator emitted
from it. `pages` are the numbers of the physical pages on which it stands, in order. -/
structure Admitted where
  ctx : Nat
  va : Dbl
  pa : Nat
  len : Nat
  script : Bool
  emitted : List Nat
  pages : List Nat
deriving DecidableEq, Repr

/-- R338: the states of a launch. -/
inductive LaunchSt where
  | waiting | admitting | placing | running | complete | failed | cancelled
deriving DecidableEq, Repr

/-- R335 to R338: a launch; `taken` tells that its ring has moved past its record. It holds the highest stamp of its domain before its
own was registered, its placement, the tiles that have not acknowledged, and its barrier counts. `cancelling` tells that its acts are
being curtained for a cancel (R348), `cancelAt` the cycle in which the cancel was taken (R349), and `outcome` the code and argument with
which it has failed (R345, R346). -/
structure Launch where
  id : Nat
  ctx : Nat
  state : LaunchSt
  image : Dbl
  qbind : Dbl
  nqb : Nat
  bars : Dbl
  wing : Nat
  scrb : Nat
  pflim : Nat
  stampb : Nat
  reloc : Dbl
  done : Dbl
  stamp : Nat
  taken : Bool
  before : Option Nat
  places : List Placement
  awaiting : List TileId
  barCounts : List Nat
  acts : List Nat
  count : Nat
  cancelling : Bool
  cancelAt : Option Nat
  node : Option (Nat × Nat)
  queues : List QueueId
  outcome : Byte × Dbl
deriving DecidableEq, Repr

/-- R343: a declared operand of a node. -/
structure Oper where
  tid : Nat
  write : Bool
  first : Nat
  count : Nat
deriving DecidableEq, Repr

/-- R343: a node of a graph: what its record states, how many of its predecessors have completed, where it stands, the code and
argument with which it failed or returned, its launch, and the commands that its chain has still to complete. -/
structure GNode where
  kind : Nat
  npred : Nat
  succ : List Nat
  stamp : Nat
  payload : Dbl
  opers : List Oper
  preds : Nat
  dispatched : Bool
  completed : Bool
  result : Option (Byte × Dbl)
  launch : Option Nat
  chainLeft : Nat
deriving DecidableEq, Repr

/-- R342, R346: a graph in the ready pool, with the worst outcome of its nodes (a STATE, its code and argument), and the cycle in which a
cancel that drops none of its nodes was taken (R349). -/
structure Graph where
  id : Nat
  ctx : Nat
  done : Dbl
  phase : Dbl
  job : Dbl
  nodes : List GNode
  count : Nat
  cancelling : Bool
  cancelAt : Option Nat
  worst : Nat
  code : Byte
  arg : Dbl
deriving DecidableEq, Repr

/-- R346: a phase or job that is open, with its completion record, the worst outcome of its children, the record of the job
of a phase, and the cycle in which a cancel was taken (R349). -/
structure Level where
  addr : Dbl
  ctx : Nat
  level : Nat
  count : Nat
  closed : Bool
  cancelling : Bool
  cancelAt : Option Nat
  worst : Nat
  code : Byte
  arg : Dbl
  up : Dbl
deriving DecidableEq, Repr

/-- R365, R351: a partition, with its counters, the records held for its hypervisor ring, its shares of the stacks and what they come to
at the stacks' thermal levels (R412), the virtual device that has the quantum, the cycles at which that quantum ends and the next begins, whether a switch has begun, and the status
block as last written (R413). `late` is a device whose regions are not all saved although the next quantum has begun, with the cycle of
that start. -/
structure Partition where
  id : Nat
  spec : PartSpec
  counters : List (Nat × Nat)
  held : List (List Byte)
  shares : List (Nat × Nat)
  scaled : List (Nat × Nat)
  running : Nat
  quantumEnd : Nat
  nextStart : Nat
  switching : Bool
  late : Option (Nat × Nat)
  statusWritten : List Nat
deriving DecidableEq, Repr

/-- R364: a virtual device: its quantum in slots or in steps of 10 µs, with the cycles deducted from its next one (R351), its
scheduling period in µs and the cycle at which it ends (R350), its virtual function (R20) and its trace ring (R434). -/
structure VDev where
  ctx : Nat
  part : Nat
  quantum : Nat
  debt : Nat
  period : Nat
  periodEnd : Nat
  vf : Option Nat
  traceRing : Nat
  traceMask : W32
  lost : Nat
deriving DecidableEq, Repr

/-- R381, R382: a chunk of a green room as it was last written: under which ACTID and save counter, with which key, the number of what the
manual leaves open of its contents, and the chunk count of its save. -/
structure Chunk where
  act : Nat
  counter : Nat
  key : Nat
  seed : Nat
  count : Nat
deriving DecidableEq, Repr

/-- R380 to R383: the green room of an act: its address and size, the act as saved, its tiles, port queues and link windows, the number of
its chunks of withheld elements, the banks that were lent, and its chunks, whose ciphertext and tags stand in memory. It stands after a
restore, as the ciphertext that the next save need not write. -/
structure GreenRoom where
  addr : Dbl
  size : Nat
  act : Act
  reason : Nat
  tiles : List (TileId × Tile)
  queues : List (QueueId × Queue)
  windows : List (Link × Nat)
  held : Nat
  banks : List (Nat × Bank)
  chunks : List Chunk
deriving DecidableEq, Repr

/-- The scheduler cores' tables (R333 to R351, R405). `revokes` holds the contexts that the hardware or the hypervisor
revokes, each with the context that they return to (R383, R364). [log 115 DEDUCED] -/
structure Sched where
  admitted : List Admitted
  launches : List Launch
  graphs : List Graph
  levels : List Level
  parts : List Partition
  vdevs : List VDev
  green : List GreenRoom
  revokes : List (Option Nat × Nat)
deriving DecidableEq, Repr

/-! ## Control dies -/

/-- A SWAIT in progress (R399). -/
structure Waiting where
  mask : Dbl
  rd : Reg
  deadline : Option Nat
deriving DecidableEq, Repr

/-- A dispatch that has been accepted and has not taken effect (R401). -/
structure Dispatch where
  kind : Nat
  die : Nat
  blk : Nat
  slot : Nat
  ctx : Nat
  rect : W32
  addr : Dbl
  arg : Dbl
deriving DecidableEq, Repr

/-- A management core (R393 to R400), or an application core, which has no Xalholt and whose pending bits, timer and dispatches stay as
after reset; `prior` tells whether it was in machine mode before its last trap, and the RISC-V registers are presumed (A12, PRESUMED). -/
structure Core where
  x : Vector Dbl 32
  pc : Dbl
  machineMode : Bool
  prior : Bool
  mepc : Dbl
  mcause : Dbl
  mtval : Dbl
  mtvec : Dbl
  mcycle : Nat
  pending : Dbl
  xtimecmp : Dbl
  waiting : Option Waiting
  dispatches : List Dispatch
  held : Bool
deriving DecidableEq, Repr

/-- R422: the key store of a control die: whether it holds the device identity key, the SPDM session keys, and one AES-256 key for each
context, by number. -/
structure KeyStore where
  identity : Bool
  sessions : List Nat
  contexts : List (Nat × Nat)
deriving DecidableEq, Repr

/-- R1, R393, R403 to R408: a control die: its management and application cores, the 100 µs boundaries at which it has sent a beat and
looked for one, its misses, whether a beat has come since, whether it is understudy and has adopted, with the rings of R441, of R403
(requests, answers) and of R410 that its boot record names, its key store, and measurement blocks 1 to 3 of its firmware (R421). -/
structure CDie where
  cores : Vector Core 8
  apps : Vector Core 16
  failed : Bool
  sent : Nat
  checked : Nat
  misses : Nat
  beat : Bool
  understudy : Bool
  adopted : Bool
  verifyRings : List (Nat × Nat)
  pageRings : Nat × Nat
  powerRing : Nat
  keys : KeyStore
  measured : List (List Byte)
deriving DecidableEq, Repr

/-- R419: a key slot of the fuses. -/
structure KeySlot where
  lms : Bool
  slot : Nat
  key : List Byte
  revoked : Bool
deriving DecidableEq, Repr

/-- R417 to R425: the security state of the package. `due` holds the codes of the level-1 alarms of this cycle, which act at its end unless
a higher level has acted in it, and `acted` the cycle and level of the last alarm above level 1 (R425). -/
structure Security where
  level : Nat
  highest : Nat
  quiesced : Bool
  keysErased : Bool
  locked : Bool
  keys : List KeySlot
  svn : List (Nat × Nat)
  failures : List Nat
  lastGlitch : Option Nat
  due : List Nat
  acted : Option (Nat × Nat)
  refusals : List (Nat × Nat)
  lastResponse : List Byte
  softList : List W32
  logRing : Nat
  logLost : Nat
deriving DecidableEq, Repr

/-- R21, R414 to R416: the bell of the package: the selected time source (0 the inputs of CDW, 1 those of CDE, 2 and more IEEE 1588 on a
port), the sources beside it that are lost, the active generator, whether it holds over, the slots
for which it still slews, the cycle of each partition's first stroke at a die without skew, the number of strokes on
which each die has acted, by partition and die, the dies that follow the standby generator, and the cycle of the latest 1PPS edge of the
selected source, where one has been seen (R21, R414). -/
structure Bell where
  source : Nat
  lost : List Nat
  active : Nat
  holdover : Bool
  slew : Nat
  slots : List (Nat × Nat)
  acted : List (Nat × Nat × Nat)
  standby : List Nat
  edge : Option Nat
deriving DecidableEq, Repr

/-- R409 to R413: the power cores; `draws` is what the package has drawn in each of the last intervals, the latest first, in pJ (R410). -/
structure Power where
  master : Nat
  cap : Nat
  caps : List (Nat × Nat)
  suspended : List Nat
  thermal : List (Nat × Nat)
  draws : List Nat
deriving DecidableEq, Repr

/-- R19, R20: a port, a received frame with its time stamp. -/
structure EthPort where
  port : Nat
  up : Bool
  frames : List (List Byte × Option Nat)
deriving DecidableEq, Repr

/-- R11: bytes that an agent of a control die (0 CDW, 1 CDE), or of the fabric, stores once links lead to their place again. -/
structure LateStore where
  cdie : Option Nat
  pa : Nat
  bytes : List Byte
deriving DecidableEq, Repr

/-- The control dies and the package's ports: beats on their way, by receiver, boundary and row (R404); fences by fabric die and fenced die,
and those held, with the cycle at which the hold ends (R406); the host port (R20), links that are down (R11), package and die
counters (R432), the rings of R442, the loader runs and relocations in progress, and the
stores that wait for a link (R11). -/
structure Ctl where
  dies : Vector CDie 2
  beats : List (Nat × Nat × Nat)
  fences : List (Nat × Nat)
  heldFences : List (Nat × Nat)
  sec : Security
  bell : Bell
  power : Power
  eth : List EthPort
  hostAttached : Bool
  hostUp : Bool
  linksDown : List (Nat × Nat)
  counters : List (Nat × Nat)
  configRings : Vector (Nat × Nat) 8
  loads : List LoadRun
  relocs : List Nat
  late : List LateStore
deriving DecidableEq, Repr

/-! ## The package -/

/-- R426: where an error is met: in a granule that scrubs look at too, in a granule of a wing line, in a granule of memory (LPDDR5X, or one
that an atomic line store or a core cache of die `die` has lost), or in the collective buffer of a die. -/
inductive Upset where
  | granule (t : ScrubTarget)
  | wing (ctx stamp line granule : Nat)
  | memory (die pa : Nat)
  | collective (die : Nat) (q : QueueId)
deriving DecidableEq, Repr

/-- What happens to the package that is no event of the opcode table: the parity of a buffered token or of a configuration granule
fails (R56, R259, R273), the power core gates a free bank (R274), firmware selects a time source (0 and 1 the inputs of CDW and CDE, 2 + n
IEEE 1588 on Ethernet port n), the signals of a source are lost or return (R21), a shootdown begins (R113, R282), the parity of a
slice entry or of a loop-buffer word fails (R17, R426), an application core comes to a word (R394), an edge of the selected time source
comes (R21, R414), an error is met in a memory (R426, R427), a core takes an interrupt (R399), or power is cycled (R424).
(A11, DESIGN CHOICE) -/
inductive World where
  | tokenUpset (t : TileId) (inp : Nat) (k : Nat)
  | cellUpset (t : TileId) (slot : Nat) (off : Nat)
  | gateBank (die : Nat) (bank : Nat)
  | selectTime (src : Nat)
  | timeSignal (src : Nat) (up : Bool)
  | shootdownBegin (ctx : Nat) (va : Dbl) (len : Nat)
  | sliceUpset (die : Nat) (ctx : Nat) (page : Nat)
  | loopUpset (act : Nat) (pc : Dbl)
  | appWord (cdie : Nat) (core : Nat) (w : W32)
  | timeEdge
  | upset (what : Upset) (found : ScrubFinding)
  | interrupt (cdie : Nat) (core : Nat) (cause : Nat)
  | powerCycle (images : List Firmware) (boot : BootRecord)
deriving DecidableEq, Repr

/-- Who moves next (A1, DESIGN CHOICE): an act fetches, a management core fetches, the fabric clock passes one cycle, or
an event of the opcode table, or one of the world outside it, takes place. -/
inductive Move where
  | act (id : Nat)
  | core (cdie : Nat) (core : Nat)
  | clock
  | event (i : Instr)
  | world (w : World)
deriving DecidableEq, Repr

/-- The agent that moves while the agenda is empty (A1, DESIGN CHOICE). -/
inductive Focus where
  | act
  | core
deriving DecidableEq, Repr

/-- The AH8 package. `me` is the act whose instruction is executed, `cd` and `ci` the management core. -/
structure State where
  mem : Mem
  cycle : Nat
  interval : Nat
  agenda : List Move
  focus : Focus
  me : Nat
  cd : Fin 2
  ci : Fin 8
  fresh : Nat
  acts : List (Nat × Act)
  ctxs : List (Nat × Ctx)
  fab : Fabric
  eng : Engines
  sch : Sched
  ctl : Ctl
deriving DecidableEq, Repr

/-- A management core right after package reset: held until its firmware is verified (R420); XTIMECMP and
the pending bits are zero (R399, R400); its RISC-V registers are presumed zero (A13, PRESUMED). -/
def Core.reset : Core :=
  { x := Vector.replicate 32 0, pc := 0, machineMode := true, prior := true, mepc := 0, mcause := 0, mtval := 0,
    mtvec := 0, mcycle := 0, pending := 0, xtimecmp := 0, waiting := none, dispatches := [], held := true }

/-- A control die after package reset (R404). -/
def CDie.reset : CDie :=
  { cores := Vector.replicate 8 Core.reset, apps := Vector.replicate 16 Core.reset, failed := false, sent := 0, checked := 0, misses := 0, beat := false,
    understudy := false, adopted := false, verifyRings := [], pageRings := (0, 0), powerRing := 0,
    keys := { identity := true, sessions := [], contexts := [] }, measured := [] }

/-- The security state after package reset (R424, R425), on a part whose fuses hold one key of each kind, in slot 0, whose bytes
are not known (A3, DESIGN CHOICE). -/
def Security.reset : Security :=
  { level := 0, highest := 0, quiesced := false, keysErased := false, locked := false,
    keys := [{ lms := false, slot := 0, key := [], revoked := false }, { lms := true, slot := 0, key := [], revoked := false }], svn := [],
    failures := [], lastGlitch := none, due := [], acted := none, refusals := [], lastResponse := [], softList := [], logRing := 0,
    logLost := 0 }

/-- The control dies after package reset (R409, R410, R413, R415, R11, R20). -/
def Ctl.reset : Ctl :=
  { dies := Vector.replicate 2 CDie.reset, beats := [], fences := [], heldFences := [],
    sec := Security.reset,
    bell := { source := 0, lost := [], active := 0, holdover := false, slew := 0, slots := [], acted := [], standby := [], edge := none },
    power := { master := 0, cap := 600000, caps := [], suspended := [], thermal := [], draws := [] },
    eth := (List.range 8).map fun p => { port := p, up := true, frames := [] }, hostAttached := false, hostUp := true, linksDown := [], counters := [],
    configRings := Vector.replicate 8 (0, 0), loads := [], relocs := [], late := [] }

/-- The package right after package reset: nothing placed, no context, no partition, memory with nothing
listed, the time base at 0 (R18, R420, R432, R435). -/
def State.reset : State :=
  { mem := [], cycle := 0, interval := 0, agenda := [], focus := .act, me := 0, cd := 0, ci := 0, fresh := 0,
    acts := [], ctxs := [],
    fab := { tiles := [], banks := [], windows := [], returns := [], requests := [], drops := [],
             flights := [], asked := [], turns := [], hedgeCount := [], channels := [], fed := [], points := [], repair := [], bad := [], hbmPoison := [], lpPoison := [], badShadows := [] },
    eng := { queues := [], score := [], coll := [], collSeq := [], pages := [], nextTag := 0, refused := [], slices := [],
             atoms := [], serial := 0, portNow := (0, 0), downs := [] },
    sch := { admitted := [], launches := [], graphs := [], levels := [], parts := [], vdevs := [],
             green := [], revokes := [] },
    ctl := Ctl.reset }

end Sys2Proof.Machine
end

