-- ==== Sys2Proof/Machine/Ops.lean ====
section
/-! DEFINITION. The named operations over the state: keyed lists, memory, registers, counters, rings,
translation, access checks, ranges, traps and the step past an instruction. -/
namespace Sys2Proof.Machine

/-! ## Lists with keys -/

/-- The value that a keyed list holds for `k`. -/
def assoc? {κ α : Type} [DecidableEq κ] (k : κ) : List (κ × α) → Option α
  | [] => none
  | (k', v) :: l => if k' = k then some v else assoc? k l

/-- The keyed list with the value of `k` replaced, or added at its end. -/
def assocSet {κ α : Type} [DecidableEq κ] (k : κ) (v : α) : List (κ × α) → List (κ × α)
  | [] => [(k, v)]
  | (k', v') :: l => if k' = k then (k, v) :: l else (k', v') :: assocSet k v l

/-- The keyed list without `k`. -/
def assocDel {κ α : Type} [DecidableEq κ] (k : κ) : List (κ × α) → List (κ × α)
  | [] => []
  | (k', v') :: l => if k' = k then assocDel k l else (k', v') :: assocDel k l

/-- The natural number that a keyed list holds for `k`, 0 where it holds none. -/
def tally {κ : Type} [DecidableEq κ] (k : κ) (l : List (κ × Nat)) : Nat := (assoc? k l).getD 0

/-- R432: a saturating 64-bit count. -/
def satAdd64 (a b : Nat) : Nat := Nat.min (a + b) (2 ^ 64 - 1)

/-- A keyed count raised by `n`, saturating (R432). -/
def bump {κ : Type} [DecidableEq κ] (k : κ) (n : Nat) (l : List (κ × Nat)) : List (κ × Nat) :=
  assocSet k (satAdd64 (tally k l) n) l

/-- The value on which a list of candidates has its least score, the first of equals. -/
def argMin {α : Type} (score : α → Nat) : List α → Option α
  | [] => none
  | a :: l => match argMin score l with
    | none => some a
    | some b => if score a ≤ score b then some a else some b

/-! ## Memory -/

/-- The byte at a physical address; an address not listed reads 0 (A2, DESIGN CHOICE). -/
def Mem.read : Mem → Nat → Byte
  | [], _ => 0
  | (k, b) :: m, a => if a < k then 0 else if k = a then b else Mem.read m a

/-- Memory with one byte stored; a zero byte is not listed. -/
def Mem.write : Mem → Nat → Byte → Mem
  | [], a, v => if v = 0 then [] else [(a, v)]
  | (k, b) :: m, a, v =>
    if a < k then (if v = 0 then (k, b) :: m else (a, v) :: (k, b) :: m)
    else if k = a then (if v = 0 then m else (a, v) :: m)
    else (k, b) :: Mem.write m a v

/-- R3: `n` bytes from `a`, the least significant first. -/
def Mem.readN (m : Mem) (a : Nat) : Nat → Nat
  | 0 => 0
  | n + 1 => (Mem.read m a).toNat + 256 * Mem.readN m (a + 1) n

/-- R3: the low `n` bytes of `v` stored from `a`, the least significant first. -/
def Mem.writeN (m : Mem) (a : Nat) : Nat → Nat → Mem
  | 0, _ => m
  | n + 1, v => Mem.writeN (Mem.write m a (BitVec.ofNat 8 v)) (a + 1) n (v / 256)

/-- A list of bytes stored from `a` upward. -/
def Mem.writeList (m : Mem) (a : Nat) : List Byte → Mem
  | [] => m
  | b :: l => Mem.writeList (Mem.write m a b) (a + 1) l

/-- `n` bytes from `a` upward. -/
def Mem.readList (m : Mem) (a : Nat) : Nat → List Byte
  | 0 => []
  | n + 1 => Mem.read m a :: Mem.readList m (a + 1) n

/-- The entries lie at `lo` or above, rise strictly, and hold no zero byte. -/
def Mem.wfFrom : Nat → Mem → Bool
  | _, [] => true
  | lo, (k, b) :: m => lo ≤ k && b != 0 && Mem.wfFrom (k + 1) m

/-- The canonical form of memory: rising addresses, no entry equal to what an unlisted address reads as. -/
def Mem.wf (m : Mem) : Bool := Mem.wfFrom 0 m

/-- R3: the bytes of the low `n` bytes of `v`, least significant first. -/
def leBytes : Nat → Nat → List Byte
  | 0, _ => []
  | n + 1, v => BitVec.ofNat 8 v :: leBytes n (v / 256)

/-- R3: the number that a list of bytes stores. -/
def leNat : List Byte → Nat
  | [] => 0
  | b :: l => b.toNat + 256 * leNat l

/-- R280: whether a physical address exists. -/
def populated (pa : Nat) : Bool :=
  let hi := pa / 2 ^ 40
  let lo := pa % 2 ^ 40
  if hi < 8 then decide (lo < 48000000000)
  else if hi < 10 then decide (lo < 128000000000)
  else false

/-! ## Records that stand for nothing -/

/-- R237: the region of an act context that has none. -/
def RegionSt.zero : RegionSt :=
  { die := 0, x0 := 0, y0 := 0, w := 0, h := 0, bsel := false, cur := 0, arm := false, tgt := 0,
    slots := Vector.replicate 4 { st := .empty, image := 0, ends := 0, error := none, job := none },
    gates := 0, period := 0, count := 0, marker := 0, armed := 0, quiet := false }

/-- R119, R325: registers at zero. -/
def Regs.zero : Regs :=
  { acpc := 0, g := Vector.replicate 32 0, c := Vector.replicate 8 0, lbase := 0,
    lb := Vector.replicate 3 { count := 0, len := 0, start := 0, on := false }, lc := Vector.replicate 3 0,
    scrflt := 0, scrMore := false, scrWr := false, scrV := false, thrc := 0, undeclPj := 0, undeclDen := 1, fdem := false,
    faultPc := 0, faultCode := 0, faultH := false, faultArg := 0, stamp := 0 }

/-- An act context that holds no act. -/
def Act.empty (id : Nat) : Act :=
  { id := id, life := .free, regs := Regs.zero, region := RegionSt.zero, loopBuf := [], ctx := 0, ctxStack := [],
    issue := [], fences := [], seqw := none, evtw := none, fenceS := none, taskOpen := false, taskDone := false, prevStamp := 0, phases := [], asyncTrap := [],
    wingStall := false, cues := [], cueEnd := 0, ends := [], curtain := none, cutRun := none, cut := none,
    cutNew := none, marks := 0, log := [], replay := false, markDue := 0, retried := [], noCut := false, pflim := 20, launch := none, vreg := 0, room := none,
    parent := none, root := none, window := [], tokens := 0, granted := 0, mxFired := 0, mxEnergy := 0, mxDecl := 0, cueRest := 0, refused := 0,
    stalled := 0, lastStall := none, refusing := false, excluded := false, progress := false, strokeDue := false }

/-- A context that owns nothing. -/
def Ctx.empty (id : Nat) : Ctx :=
  { id := id, parent := none, part := 0, depth := 1, revoking := false, revoked := false, lastFault := 0, ptroot := 0, fpol := false,
    pflim := 20, mbase := 0, mbound := 0, qmask := 0, tmask := 0, tvec := 0, rring := 0, evb := 0, sring := 0,
    portion := 0, floor := 0, floorSince := none, rects := Vector.replicate 8 0, fb := 0, fl := 0, ev := 0,
    bars := Vector.replicate 32 { count := 0, phase := 0, arrived := 0 }, tids := [], balance := 0, tasks := [],
    reserved := [], highest := 0, committed := 0, held := [], saveCtr := 0, counters := [] }

/-- R188: scale latches before any scale token. -/
def Latch.zero : Latch := { lo := 0, hi := 0, second := false }

/-- R193: a matrix node's state before any firing (A3, DESIGN CHOICE). -/
def NodeSt.zero : NodeSt :=
  { acc := List.replicate 32 0, nan := 0, lsat := false, asat := false, aund := false, latch := Latch.zero,
    busy := 0, oneShot := none, reading := [] }

/-- R164: a pipeline's state for a scene not yet loaded. -/
def SceneSt.zero : SceneSt :=
  { l := List.replicate 4 (Vector.replicate 16 0), f := 0, turn := 0, ended := false, closes := [],
    latches := List.replicate 4 Latch.zero }

/-- The elements of a tile with nothing loaded. -/
def ElemSt.zero : ElemSt := { scenes := List.replicate 4 SceneSt.zero, node := NodeSt.zero, pos := [] }

/-- A tile with nothing loaded (R18). -/
def Tile.empty : Tile :=
  { cfg := [none, none, none, none], parity := [], st := ElemSt.zero, inbuf := [[], [], [], []], outq := [],
    pipeNext := 0, nodeNext := 0, portNext := List.replicate 8 0, lastPipe := none, lastNode := none, shadow := none, shadowNew := none, shadowBad := false,
    replay := [], slots := [], written := [], tag := none, weak := [], fired := false, touched := false }

/-- R275: an operand slot that nobody owns. -/
def OpSlot.empty : OpSlot := { owner := none, lastCtx := none, bytes := [], sb := [0, 0, 0, 0], poison := [] }

/-- A queue that holds nothing (R204). -/
def Queue.empty (id : QueueId) : Queue :=
  { id := id, server := none, recAddr := 0, recBound := false, entries := [], active := none, dropped := false,
    owner := (0, 0, 0), node := none, seq := 0,
    state := 0, cause := 0, arg := 0, abort := false, chain := none, head := 0, bcast := none,
    fin := 0, past := [], collNo := 0 }

/-! ## Reading and changing the records of the state -/

def State.act (s : State) (id : Nat) : Act := (assoc? id s.acts).getD (Act.empty id)
def State.setAct (s : State) (a : Act) : State := { s with acts := assocSet a.id a s.acts }
/-- The state with act `id` changed by `f`. -/
def State.updAct (s : State) (id : Nat) (f : Act → Act) : State :=
  { s with acts := assocSet id (f (s.act id)) s.acts }
def State.cur (s : State) : Act := s.act s.me
/-- The state with the act whose instruction is executed changed by `f`. -/
def State.updCur (s : State) (f : Act → Act) : State := s.updAct s.me f

def State.ctx (s : State) (id : Nat) : Ctx := (assoc? id s.ctxs).getD (Ctx.empty id)
def State.updCtx (s : State) (id : Nat) (f : Ctx → Ctx) : State :=
  { s with ctxs := assocSet id (f (s.ctx id)) s.ctxs }
/-- R119: the current context of the act whose instruction is executed. -/
def State.curCtx (s : State) : Ctx := s.ctx s.cur.ctx

def State.tile (s : State) (t : TileId) : Tile := (assoc? t s.fab.tiles).getD Tile.empty
def State.updTile (s : State) (t : TileId) (f : Tile → Tile) : State :=
  { s with fab := { s.fab with tiles := assocSet t (f (s.tile t)) s.fab.tiles } }

def State.queue (s : State) (q : QueueId) : Queue := (assoc? q s.eng.queues).getD (Queue.empty q)
def State.updQueue (s : State) (q : QueueId) (f : Queue → Queue) : State :=
  { s with eng := { s.eng with queues := assocSet q (f (s.queue q)) s.eng.queues } }

def State.cdie (s : State) (d : Fin 2) : CDie := s.ctl.dies[d.val]
def State.updCDie (s : State) (d : Fin 2) (f : CDie → CDie) : State :=
  { s with ctl := { s.ctl with dies := s.ctl.dies.set d.val (f s.ctl.dies[d.val]) } }
def State.mcore (s : State) (d : Fin 2) (c : Fin 8) : Core := (s.cdie d).cores[c.val]
def State.updCore (s : State) (d : Fin 2) (c : Fin 8) (f : Core → Core) : State :=
  s.updCDie d fun x => { x with cores := x.cores.set c.val (f x.cores[c.val]) }

/-- R393: an application core of a control die, and that core changed. -/
def State.app (s : State) (d : Fin 2) (c : Fin 16) : Core := (s.cdie d).apps[c.val]
def State.updApp (s : State) (d : Fin 2) (c : Fin 16) (f : Core → Core) : State :=
  s.updCDie d fun x => { x with apps := x.apps.set c.val (f x.apps[c.val]) }

/-- The act with a region entry changed. -/
def Act.updRegs (a : Act) (f : Regs → Regs) : Act := { a with regs := f a.regs }
def Act.updRegion (a : Act) (f : RegionSt → RegionSt) : Act := { a with region := f a.region }

/-- R15, R119: the parts of an ACTID: die, block, slot. -/
def actDie (id : Nat) : Nat := id / 64 % 8
def actBlk (id : Nat) : Nat := id / 4 % 16
def actSlot (id : Nat) : Nat := id % 4
/-- R119: an ACTID from its parts. -/
def mkActId (die blk slot : Nat) : Nat := die * 64 + blk * 4 + slot

/-- A next value that the manual leaves open, and the state that has used it (A8, DESIGN CHOICE). -/
def State.free (s : State) : Nat × State := (Config.freeNat s.fresh, { s with fresh := s.fresh + 1 })

/-! ## Registers of an act (R110) -/

/-- R110: g0 reads as zero. -/
def Regs.readG (r : Regs) (n : Reg) : Dbl := if n = 0 then 0 else r.g[n.toNat]'(n.isLt)

/-- R110: a write to g0 is discarded. -/
def Regs.writeG (r : Regs) (n : Reg) (v : Dbl) : Regs :=
  if n = 0 then r else { r with g := r.g.set n.toNat v n.isLt }

/-- The value of g`n` of the act whose instruction is executed. -/
def State.g (s : State) (n : Reg) : Dbl := s.cur.regs.readG n

/-- The state with g`n` of that act written. -/
def State.setG (s : State) (n : Reg) (v : Dbl) : State := s.updCur fun a => a.updRegs (·.writeG n v)

/-- R120: bits [31:0] sign-extended. -/
def sext32 (v : Dbl) : Dbl := (v.extractLsb' 0 32).signExtend 64

/-! ## The loop machinery (R129, R130) -/

/-- The register number of a loop level. -/
abbrev Lvl := Fin 3

/-- R119: address of the first word of the body of level `k`. -/
def Regs.bodyStart (r : Regs) (k : Lvl) : Dbl :=
  r.lbase + BitVec.ofNat 64 (4 * r.lb[k.val].start.toNat)

/-- R130: address of the last word of the body of level `k`. -/
def Regs.bodyEnd (r : Regs) (k : Lvl) : Dbl :=
  r.lbase + BitVec.ofNat 64 (4 * (r.lb[k.val].start.toNat + r.lb[k.val].len.toNat - 1))

/-- Whether the body of level `k` holds the word at `pc`. -/
def Regs.inBody (r : Regs) (k : Lvl) (pc : Dbl) : Bool :=
  decide ((r.bodyStart k).toNat ≤ pc.toNat) && decide (pc.toNat ≤ (r.bodyEnd k).toNat)

/-- The active levels. -/
def Regs.activeLevels (r : Regs) : List Lvl := [0, 1, 2].filter fun k => r.lb[k.val].on

/-- The innermost active level among `ks`: bodies nest, so the shortest (R129). -/
def Regs.innermost (r : Regs) (ks : List Lvl) : Option Lvl :=
  argMin (fun k => r.lb[k.val].len.toNat) ks

/-- Whether some loop is active. -/
def Regs.looping (r : Regs) : Bool := !r.activeLevels.isEmpty

def Regs.endLoop (r : Regs) (k : Lvl) : Regs :=
  { r with lb := r.lb.set k.val { r.lb[k.val] with on := false } }

/-- R130: the end test after an instruction at `pc` that did not branch, innermost loop first. -/
def loopTest : Nat → Dbl → Regs → Regs
  | 0, pc, r => { r with acpc := pc + 4 }
  | n + 1, pc, r =>
    match r.innermost (r.activeLevels.filter fun k => r.bodyEnd k = pc) with
    | none => { r with acpc := pc + 4 }
    | some k =>
      if r.lc[k.val].toNat + 1 < r.lb[k.val].count.toNat then
        { r with lc := r.lc.set k.val (r.lc[k.val] + 1), acpc := r.bodyStart k }
      else loopTest n pc (r.endLoop k)

/-- R130: the loops whose body does not hold `target` end; the loops nested in them end with them. -/
def leaveLoops (r : Regs) (target : Dbl) : Regs :=
  r.activeLevels.foldl (fun r k => if r.inBody k target then r else r.endLoop k) r

/-- The registers past an instruction at ACPC that did not branch; R115 suspends the loops while H = 1. -/
def Regs.advance (r : Regs) : Regs :=
  if r.faultH then { r with acpc := r.acpc + 4 } else loopTest 3 r.acpc r

/-- The registers after a taken branch or jump (R130). -/
def Regs.jump (r : Regs) (target : Dbl) : Regs :=
  if r.faultH then { r with acpc := target } else { leaveLoops r target with acpc := target }

/-- R17: the loop buffer is released when the last loop ends. -/
def Act.trimLoops (a : Act) : Act :=
  if a.regs.faultH || a.regs.looping then a else { a with loopBuf := [] }

/-- The act past its instruction. -/
def Act.advance (a : Act) : Act := { a with regs := a.regs.advance }.trimLoops

/-- The act at the target of its branch or jump. -/
def Act.jump (a : Act) (t : Dbl) : Act := { a with regs := a.regs.jump t }.trimLoops

/-- The state past the instruction of the act that is executed. -/
def State.retire (s : State) : State := s.updCur Act.advance

/-- The state after a taken branch of that act. -/
def State.jumpTo (s : State) (t : Dbl) : State := s.updCur (·.jump t)

/-! ## Contexts -/

/-- R354: the ancestors of a context, the nearest first; contexts nest at most eight deep (R1). -/
def ancestorsFuel : Nat → State → Nat → List Nat
  | 0, _, _ => []
  | n + 1, s, c => match (s.ctx c).parent with
    | none => []
    | some p => p :: ancestorsFuel n s p

def State.ancestors (s : State) (c : Nat) : List Nat := ancestorsFuel 8 s c

/-- The top-level context (virtual device) of a context's tree. -/
def State.rootOf (s : State) (c : Nat) : Nat := (s.ancestors c).getLast?.getD c

/-- Whether context `c` lies in the subtree rooted at `r`. -/
def State.inSubtree (s : State) (r c : Nat) : Bool := c == r || (s.ancestors c).contains r

/-- The virtual device of a context, where it has one. -/
def State.vdevOf (s : State) (c : Nat) : Option VDev :=
  s.sch.vdevs.find? fun v => v.ctx == s.rootOf c

def State.updVdev (s : State) (ctx : Nat) (f : VDev → VDev) : State :=
  { s with sch := { s.sch with vdevs := s.sch.vdevs.map fun v => if v.ctx = ctx then f v else v } }

/-- The partition numbered `id`, where it exists. -/
def State.part? (s : State) (id : Nat) : Option Partition := s.sch.parts.find? fun p => p.id == id

def State.updPart (s : State) (id : Nat) (f : Partition → Partition) : State :=
  { s with sch := { s.sch with parts := s.sch.parts.map fun p => if p.id = id then f p else p } }

/-! ## Counters (R432, R433) -/

/-- A context counter raised. -/
def State.count (s : State) (ctx id n : Nat) : State :=
  s.updCtx ctx fun c => { c with counters := bump id n c.counters }

/-- A partition counter raised. -/
def State.countPart (s : State) (part id n : Nat) : State :=
  s.updPart part fun p => { p with counters := bump id n p.counters }

/-- A die or package counter raised; `key` is 0x10000 times one more than the die, plus the identifier, or the
identifier alone for the package. -/
def State.countPkg (s : State) (key n : Nat) : State :=
  { s with ctl := { s.ctl with counters := bump key n s.ctl.counters } }

/-! ## Signals of the management cores (R399) -/

/-- R393: the roles by core index. -/
inductive Role where
  | scheduler | translator | pages | power | security
deriving DecidableEq, Repr

def roleOf (c : Fin 8) : Role :=
  if c.val < 2 then .scheduler else if c.val < 4 then .translator else if c.val < 6 then .pages
  else if c.val = 6 then .power else .security

/-- R399: the roles to which a signal bit is routed; none for the reserved bits. -/
def routedTo (bit : Nat) (r : Role) : Bool :=
  match bit with
  | 0 | 1 | 2 | 3 | 8 => r == .scheduler
  | 4 => r == .translator
  | 5 | 6 | 7 => r == .pages
  | 9 | 12 => r == .power || r == .scheduler
  | 10 | 11 => r == .power
  | 13 => r == .scheduler || r == .security
  | 14 | 15 => true
  | _ => false

/-- A pending bit set in one core. -/
def Core.pend (c : Core) (bit : Nat) : Core :=
  { c with pending := c.pending ||| BitVec.ofNat 64 (2 ^ bit) }

/-- R399: a signal set in every core of its roles on one control die. -/
def CDie.signal (d : CDie) (bit : Nat) : CDie :=
  { d with cores := Vector.ofFn fun i : Fin 8 => if routedTo bit (roleOf i) then d.cores[i.val].pend bit
                                               else d.cores[i.val] }

/-- R399: a signal set in every core of its roles. -/
def State.signal (s : State) (bit : Nat) : State :=
  { s with ctl := { s.ctl with dies := s.ctl.dies.map (·.signal bit) } }

/-! ## Links and memories (R10, R11, R406, R408) -/

/-- R408: whether an address lies in the LPDDR5X of a control die that has been fenced. -/
def State.fencedMem (s : State) (pa : Nat) : Bool :=
  (pa / 2 ^ 40 == 8 && s.ctl.fences.any (·.2 == 8)) || (pa / 2 ^ 40 == 9 && s.ctl.fences.any (·.2 == 9))

/-- R11: whether the link between two dies is up. -/
def State.linkStands (s : State) (a b : Nat) : Bool := !(s.ctl.linksDown.any fun l => l == (a, b) || l == (b, a))

/-- R11, R406: whether the link between two dies carries traffic: it is up, and no fence drops every flit on it. -/
def State.linkUp (s : State) (a b : Nat) : Bool :=
  s.linkStands a b && !(s.ctl.fences.any fun f => f == (a, b) || f == (b, a))

/-- R10: the fabric dies that a control die is attached to. -/
def attached (d : Fin 2) : List Nat := if d = 0 then [0, 4] else [3, 7]

/-- R10, R18: whether the fabric reaches the memory at an address: LPDDR5X through one of the two links of its control die alone. -/
def State.fabricReaches (s : State) (pa : Nat) : Bool :=
  match pa / 2 ^ 40 with
  | 8 => (attached 0).any (s.linkUp 8)
  | 9 => (attached 1).any (s.linkUp 9)
  | _ => true

/-- R11: whether a row of fabric dies carries traffic between the control dies. -/
def State.rowUp (s : State) (row : Nat) : Bool :=
  s.linkUp 8 (4 * row) && s.linkUp (4 * row) (4 * row + 1) && s.linkUp (4 * row + 1) (4 * row + 2)
    && s.linkUp (4 * row + 2) (4 * row + 3) && s.linkUp (4 * row + 3) 9

/-- R406: whether control die `d` reaches the fabric. -/
def State.joinsFabric (s : State) (d : Fin 2) : Bool := (attached d).any (s.linkUp (8 + d.val))

/-- R10, R11: whether an agent of control die `d` reaches the memory at an address: that of its own die, the other control die's through a
row of fabric dies, and HBM4 through one of its own links. An access that nothing can carry waits. [log 122 DESIGN CHOICE] -/
def State.controlReaches (s : State) (d : Fin 2) (pa : Nat) : Bool :=
  pa / 2 ^ 40 == 8 + d.val || (if pa / 2 ^ 40 = 9 - d.val then s.rowUp 0 || s.rowUp 1 else s.joinsFabric d)

/-- R404, R406: a control die that has failed, or that a fence cuts off. -/
def State.cdLost (s : State) (d : Fin 2) : Bool := s.ctl.dies[d.val].failed || s.ctl.fences.any (·.2 == 8 + d.val)

/-- The control die whose cores serve the package: CDW until it is fenced (R406, R407). [log 105 DEDUCED] -/
def State.leader (s : State) : Fin 2 := if s.ctl.fences.any (·.2 == 8) then 1 else 0

/-- R426, R427: whether an address lies in a poisoned granule of HBM4 or of LPDDR5X. -/
def State.poisoned (s : State) (pa : Nat) : Bool := s.fab.hbmPoison.contains (pa / 32) || s.fab.lpPoison.contains (pa / 8)

/-- R427: the first poisoned byte of `n` that a read touches, from `pa` on. -/
def State.firstPoison (s : State) (pa n : Nat) : Option Nat :=
  if s.fab.hbmPoison.isEmpty && s.fab.lpPoison.isEmpty then none else ((List.range n).map (pa + ·)).find? s.poisoned

/-! ## The page-table walk (R359, R360) -/

/-- What a walk finds. -/
inductive Walk where
  | leaf (rel : Nat) (w x : Bool)
  | absent
  | bound
  | lost (pa : Nat)
deriving DecidableEq, Repr

/-- What an access asks for. -/
inductive Access where
  | read | write | fetch
deriving DecidableEq, Repr

/-- R403: the kind code of an access. -/
def Access.code : Access → Nat
  | .read => 0
  | .write => 1
  | .fetch => 2

/-- R360: an entry is present at `level` only with V set and no reserved bit set. -/
def ptePresent (e : Dbl) (level : Nat) : Bool :=
  e.getLsbD 0 && (e.extractLsb' 5 7 == 0) && (e.extractLsb' 48 16 == 0)
    && (!(e.getLsbD 3) || level == 1 || level == 2) && (!(e.getLsbD 4) || level == 0)

/-- R360: ADDR. -/
def pteAddr (e : Dbl) : Nat := (e.extractLsb' 12 36).toNat * 4096

/-- R360: the 16 aligned entries of a C16 group agree. -/
def c16Agree (m : Mem) (pa0 : Nat) : Bool :=
  let es := (List.range 16).map fun i => (i, BitVec.ofNat 64 (m.readN (pa0 + 8 * i) 8))
  let e0 : Dbl := BitVec.ofNat 64 (m.readN pa0 8)
  pteAddr e0 % 65536 == 0 && es.all fun p =>
    p.2.getLsbD 4 && pteAddr p.2 == pteAddr e0 + 4096 * p.1 && p.2.getLsbD 1 == e0.getLsbD 1
      && p.2.getLsbD 2 == e0.getLsbD 2

/-- R408, R427: a table entry that no walk can read. -/
def State.tableLost (s : State) (pa : Nat) : Bool := s.fencedMem pa || s.poisoned pa

/-- R360, R408, R427: the walk from a table at relative address `t` at a level. -/
def walkAt (s : State) (fb fl v : Nat) : Nat → Nat → Walk
  | 0, t =>
    let m := s.mem
    let i := v / 4096 % 512
    if fl ≤ t || !populated (fb + t) then .bound
    else if s.tableLost (fb + t + 8 * i) then .lost (fb + t + 8 * i)
    else
      let e : Dbl := BitVec.ofNat 64 (m.readN (fb + t + 8 * i) 8)
      if !ptePresent e 0 then .absent
      else if e.getLsbD 4 && !c16Agree m (fb + t + 8 * (i / 16 * 16)) then .absent
      else .leaf (pteAddr e + v % 4096) (e.getLsbD 1) (e.getLsbD 2)
  | l + 1, t =>
    let m := s.mem
    let size := 4096 * 512 ^ (l + 1)
    if fl ≤ t || !populated (fb + t) then .bound
    else if s.tableLost (fb + t + 8 * (v / size % 512)) then .lost (fb + t + 8 * (v / size % 512))
    else
      let e : Dbl := BitVec.ofNat 64 (m.readN (fb + t + 8 * (v / size % 512)) 8)
      if !ptePresent e (l + 1) then .absent
      else if e.getLsbD 3 then
        if pteAddr e % size = 0 then .leaf (pteAddr e + v % size) (e.getLsbD 1) (e.getLsbD 2) else .absent
      else walkAt s fb fl v l (pteAddr e)

/-- R360: the walk of a context for the 57-bit virtual address `v`. -/
def walk (s : State) (c : Ctx) (v : Nat) : Walk := walkAt s c.fb c.fl v 4 c.ptroot

/-- R124 step 2: bits [63:57] equal bit [56]. -/
def canonical (va : Dbl) : Bool := va.toNat / 2 ^ 56 == 0 || va.toNat / 2 ^ 56 == 255

/-- The outcome of translating an access. -/
inductive Xlate where
  | ok (pa : Nat)
  | miss
  | fault (code : Byte) (arg : Dbl)
deriving DecidableEq, Repr

/-- R254: whether an address lies in a page of an admitted image, which no context may write. -/
def State.sealed (s : State) (pa : Nat) : Bool :=
  s.sch.admitted.any fun a => a.pages.contains (pa / 4096)

/-- R124 steps 4 and 5, R280, R408, R427, R254: the checks on what a translation yields. [log 127 DEDUCED] -/
def checkLeaf (s : State) (c : Ctx) (va : Dbl) (k : Access) (rel : Nat) (w x : Bool) : Xlate :=
  if (k == .write && (!w || s.sealed (c.fb + rel))) || (k == .fetch && !x) then .fault 0x11 va
  else if c.fl ≤ rel then .fault 0x12 va
  else
    let pa := c.fb + rel
    if !populated pa then .fault 0x12 va
    else if s.fencedMem pa || (k != .write && s.poisoned pa) then .fault 0x50 (BitVec.ofNat 64 pa)
    else .ok pa

/-- R281: the exclusive or of bits `lo`, `lo + 4`, … of `v`, `n` of them. -/
def xorBits (v lo : Nat) : Nat → Bool
  | 0 => false
  | n + 1 => v.testBit lo ^^ xorBits v (lo + 4) n

/-- R281: the slice that holds the translation of a 57-bit address in a context. -/
def sliceOf (v c : Nat) : Nat :=
  (xorBits v 12 12 ^^ xorBits c 0 3).toNat + 2 * (xorBits v 13 11 ^^ xorBits c 1 3).toNat
    + 4 * (xorBits v 14 11 ^^ xorBits c 2 3).toNat + 8 * (xorBits v 15 11 ^^ xorBits c 3 3).toNat

/-- R15, R17: the set of an entry in its slice of 256 sets of 8; how a page finds its set is left open, a free value (A19, DESIGN CHOICE). -/
def SliceEntry.set (e : SliceEntry) : Nat := Config.sliceSet e.ctx e.page % 256

/-- R15, R17, R282: an entry put into its set of a slice; the victim of a full set is a free value (A19, DESIGN CHOICE). -/
def State.fillSlice (s : State) (e : SliceEntry) : State :=
  let put (s : State) : State := { s with eng := { s.eng with slices := s.eng.slices ++ [e] } }
  let mine := s.eng.slices.filter fun x => x.die == e.die && x.slice == e.slice
  if mine.length < 8 then put s
  else
    let ways := mine.filter fun x => x.set == e.set
    if ways.length < 8 then put s
    else
      let (v, s) := s.free
      match ways[v % ways.length]? with
      | none => s
      | some old => { s with eng := { s.eng with slices := (s.eng.slices.filter (· ≠ old)) ++ [e] } }

/-- R281, R282, R124: an access of context `ctx` from die `die`, through its slice, and the state in which a
miss has been walked. -/
def translate (s : State) (die ctx : Nat) (va : Dbl) (k : Access) : Xlate × State :=
  if !canonical va then (.fault 0x10 va, s)
  else
    let v := va.toNat % 2 ^ 57
    let c := s.ctx ctx
    let sl := sliceOf v ctx
    match s.eng.slices.find? fun e => e.die == die && e.slice == sl && e.ctx == ctx && e.page == v / 4096 with
    | some e => (checkLeaf s c va k (e.rel + v % 4096) e.w e.x, s)
    | none =>
      match walk s c v with
      | .absent => (.miss, s)
      | .bound => (.fault 0x12 va, s)
      | .lost pa => (.fault 0x50 (BitVec.ofNat 64 pa), s)
      | .leaf rel w x =>
        (checkLeaf s c va k rel w x,
         s.fillSlice { die := die, slice := sl, ctx := ctx, page := v / 4096, rel := rel - v % 4096, w := w, x := x })

/-- R449, R402, R363: an access of a control-die agent for a context; it goes through no fabric slice. -/
def translateCtl (s : State) (ctx : Nat) (va : Dbl) (k : Access) : Xlate :=
  if !canonical va then .fault 0x10 va
  else
    let v := va.toNat % 2 ^ 57
    match walk s (s.ctx ctx) v with
    | .absent => .miss
    | .bound => .fault 0x12 va
    | .lost pa => .fault 0x50 (BitVec.ofNat 64 pa)
    | .leaf rel w x => checkLeaf s (s.ctx ctx) va k rel w x

/-! ## Stores, and the doorbell (R333) -/

/-- The physical address of the TAIL of a context's submission ring. -/
def tailPa (s : State) (c : Ctx) : Option Nat :=
  if c.sring = 0 then none
  else match translateCtl s c.id (c.sring + 0x18) .read with
  | .ok pa => some pa
  | _ => none

/-- Whether a store of `n` bytes from `pa` touches the TAIL of a submission ring. -/
def ringsDoorbell (s : State) (pa n : Nat) : Bool :=
  s.ctxs.any fun p => match tailPa s p.2 with
    | some t => decide (pa < t + 8) && decide (t < pa + n)
    | none => false

/-- R333, R399: a store to TAIL rings the doorbell. -/
def State.doorbell (s : State) (pa n : Nat) : State := if ringsDoorbell s pa n then s.signal 0 else s

/-- R427: a write of whole granules clears their poison. [log 68 DEDUCED] -/
def State.clearPoison (s : State) (pa n : Nat) : State :=
  if s.fab.hbmPoison.isEmpty && s.fab.lpPoison.isEmpty then s
  else
    let whole (k g : Nat) : Bool := decide (pa ≤ k * g) && decide (k * g + k ≤ pa + n)
    let hbm := s.fab.hbmPoison.filter fun g => !whole 32 g
    let lp := s.fab.lpPoison.filter fun g => !whole 8 g
    { s with fab := { s.fab with hbmPoison := hbm, lpPoison := lp } }

/-- The low `n` bytes of `v` stored at physical address `pa`, at package scope. -/
def State.store (s : State) (pa n v : Nat) : State :=
  ({ s with mem := s.mem.writeN pa n v }.clearPoison pa n).doorbell pa n

/-- A list of bytes stored from physical address `pa`. -/
def State.storeList (s : State) (pa : Nat) (bs : List Byte) : State :=
  ({ s with mem := s.mem.writeList pa bs }.clearPoison pa bs.length).doorbell pa bs.length

/-- R11: whether links lead an agent of a control die, or one of the fabric, to an address. -/
def State.leads (s : State) (cdie : Option Nat) (pa : Nat) : Bool :=
  match cdie with
  | some d => s.controlReaches (Fin.ofNat 2 d) pa
  | none => s.fabricReaches pa

/-- R11: bytes that an agent stores; where no link leads there, or earlier ones of it still wait, they wait. [log 122 DESIGN CHOICE] -/
def State.storeFrom (s : State) (cdie : Option Nat) (pa : Nat) (bs : List Byte) : State :=
  if s.leads cdie pa && !(s.ctl.late.any fun x => x.cdie == cdie) then s.storeList pa bs
  else { s with ctl := { s.ctl with late := s.ctl.late ++ [{ cdie := cdie, pa := pa, bytes := bs }] } }

/-- R11, R408: the stores that have waited for a link are performed, in order, as far as links lead to them; those to a fenced control
die's memory are lost. -/
def State.storeLate (s : State) : State :=
  s.ctl.late.foldl (fun s x =>
    if s.fencedMem x.pa then s else s.storeFrom x.cdie x.pa x.bytes) { s with ctl := { s.ctl with late := [] } }

/-- R11, R408: whether the control dies' agents that serve the package reach an address. -/
def State.served (s : State) (pa : Nat) : Bool := s.controlReaches s.leader pa && !s.fencedMem pa

/-- `n` bytes that a control-die agent reads for a context, in one page. -/
def readCtl (s : State) (ctx : Nat) (va : Dbl) (n : Nat) : Option Nat :=
  match translateCtl s ctx va .read with
  | .ok pa => if s.served pa then some (s.mem.readN pa n) else none
  | _ => none

/-- `n` bytes that a control-die agent stores for a context, where its translation allows it. -/
def storeCtl (s : State) (ctx : Nat) (va : Dbl) (n v : Nat) : State :=
  match translateCtl s ctx va .write with
  | .ok pa => s.storeFrom (some s.leader.val) pa (leBytes n v)
  | _ => s

/-! ## Rings that the hardware writes (R333, R363, R397) -/

/-- One record put at TAIL of the ring whose descriptor stands at physical address `d`, given where the bytes
of an address lie; `none` when the ring is full or cannot be reached. -/
def ringPut (s : State) (d : Nat) (where? : Dbl → Option Nat) (log2e : Nat) (bs : List Byte) : Option State :=
  let base := s.mem.readN d 8
  let n := s.mem.readN (d + 8) 8 % 32
  let head := s.mem.readN (d + 16) 8
  let tail := s.mem.readN (d + 24) 8
  if (tail + 2 ^ 64 - head) % 2 ^ 64 < 2 ^ n then
    match where? (BitVec.ofNat 64 (base + tail % 2 ^ n * 2 ^ log2e)) with
    | none => none
    | some pa => some ((s.storeList pa bs).store (d + 24) 8 ((tail + 1) % 2 ^ 64))
  else none

/-- A record put into a ring named by physical addresses (R397). -/
def ringPutPhys (s : State) (d log2e : Nat) (bs : List Byte) : Option State :=
  if !populated d || !s.served d then none
  else ringPut s d (fun a => if populated a.toNat && s.served a.toNat then some a.toNat else none) log2e bs

/-- A record put into a ring named by virtual addresses of a context (R363). -/
def ringPutCtx (s : State) (ctx : Nat) (d : Dbl) (log2e : Nat) (bs : List Byte) : Option State :=
  match translateCtl s ctx d .write with
  | .ok pa =>
    if !s.served pa then none
    else ringPut s pa (fun a => match translateCtl s ctx a .write with
      | .ok p => if s.served p then some p else none
      | _ => none) log2e bs
  | _ => none

/-! ## Trace records (R434 to R436) -/

/-- R435: a trace record. -/
def traceBytes (type ctx die act time a b : Nat) : List Byte :=
  leBytes 8 (1 + type % 256 * 2 ^ 8 + ctx % 4096 * 2 ^ 16 + die % 16 * 2 ^ 28 + act % 512 * 2 ^ 32)
    ++ leBytes 8 time ++ leBytes 8 a ++ leBytes 8 b

/-- R434: a record placed in a trace ring at `ring`, with the LOST record before it, and the count of records
lost in that ring. -/
def tracePut (s : State) (ring lost : Nat) (rec lostRec : List Byte) : State × Nat :=
  if lost = 0 then
    match ringPutPhys s ring 5 rec with
    | some s => (s, 0)
    | none => (s, 1)
  else
    match ringPutPhys s ring 5 lostRec with
    | none => (s, lost + 1)
    | some s1 => match ringPutPhys s1 ring 5 rec with
      | none => (s, lost + 1)
      | some s2 => (s2, 0)

/-- R434: a trace record of context `ctx`, if its virtual device has a ring and enables the type. -/
def State.trace (s : State) (type ctx die act a b : Nat) : State :=
  match s.vdevOf ctx with
  | none => s
  | some v =>
    if v.traceRing = 0 || !v.traceMask.getLsbD type then s
    else
      let (s, lost) := tracePut s v.traceRing v.lost (traceBytes type ctx die act s.cycle a b)
        (traceBytes 0x0E ctx die 0 s.cycle v.lost 0)
      s.updVdev v.ctx fun v => { v with lost := lost }

/-- A trace record of an act. -/
def State.traceAct (s : State) (type id a b : Nat) : State :=
  s.trace type (s.act id).ctx (actDie id) id a b

/-! ## Reflection (R362, R363) -/

/-- R363: a reflection record. -/
def reflectBytes (kind : Nat) (code : Byte) (ctx depth act : Nat) (pc arg : Dbl) (n : Nat) : List Byte :=
  leBytes 8 (kind + code.toNat * 2 ^ 8 + ctx % 4096 * 2 ^ 16 + depth % 16 * 2 ^ 28 + act % 512 * 2 ^ 32)
    ++ leBytes 8 pc.toNat ++ leBytes 8 arg.toNat ++ leBytes 8 n

/-- R153, R362: an event bit of a context set. -/
def State.setEvent (s : State) (ctx e : Nat) : State :=
  s.updCtx ctx fun c => { c with ev := c.ev ||| BitVec.ofNat 16 (2 ^ e) }

/-- R362, R363: a record for the ring of context `ctx`; one that finds its ring full is held in order. -/
def State.putReflection (s : State) (ctx : Nat) (bs : List Byte) : State :=
  let c := s.ctx ctx
  if c.held ≠ [] then s.updCtx ctx fun c => { c with held := c.held ++ [bs] }
  else match ringPutCtx s ctx c.rring 5 bs with
  | some s => s.setEvent ctx c.evb
  | none => s.updCtx ctx fun c => { c with held := c.held ++ [bs] }

/-- R365: a record for a partition's hypervisor ring. -/
def State.putHypervisor (s : State) (part : Nat) (bs : List Byte) : State :=
  match s.part? part with
  | none => s
  | some p =>
    if p.held ≠ [] then s.updPart part fun p => { p with held := p.held ++ [bs] }
    else match ringPutPhys s p.spec.ring 5 bs with
    | some s => s
    | none => s.updPart part fun p => { p with held := p.held ++ [bs] }

/-- R362: the nearest ancestor whose mask claims the code and whose ring is not 0. -/
def State.claimer (s : State) (ctx : Nat) (code : Byte) : Option Nat :=
  (s.ancestors ctx).find? fun c => (s.ctx c).tmask.getLsbD code.toNat && (s.ctx c).rring != 0

/-- R363: the nearest context from `ctx` upward whose ring is not 0. -/
def State.ringHolder (s : State) (ctx : Nat) : Option Nat :=
  (ctx :: s.ancestors ctx).find? fun c => (s.ctx c).rring != 0

/-- R158, R362: a trap of context `ctx` reflected: one KIND 0 record in the claimer's ring, or the hypervisor's. -/
def State.reflect (s : State) (ctx : Nat) (code : Byte) (act : Nat) (pc arg : Dbl) : State :=
  let s := s.updCtx ctx fun c => { c with lastFault := code }
  let bs := reflectBytes 0 code ctx (s.ctx ctx).depth act pc arg 0
  match s.claimer ctx code with
  | some c => s.putReflection c bs
  | none => s.putHypervisor (s.ctx ctx).part bs

/-- R363: a record of KIND 1 to 3 addressed to `ctx`, or to the partition above a virtual device. -/
def State.report (s : State) (dest : Option Nat) (part : Nat) (bs : List Byte) : State :=
  match dest with
  | none => s.putHypervisor part bs
  | some c => match s.ringHolder c with
    | some r => s.putReflection r bs
    | none => s.putHypervisor part bs

/-! ## Taking a trap, and returning from one (R115, R118) -/

/-- R115: act `id` takes `code` at the word at `pc`: in its own handler where its context claims the code and
H is 0, and otherwise stopped, with the trap reflected. -/
def State.trapAt (s : State) (id : Nat) (pc : Dbl) (code : Byte) (arg : Dbl) : State :=
  let a := s.act id
  let c := s.ctx a.ctx
  let s := (s.updCtx a.ctx fun c => { c with lastFault := code }).traceAct 0x06 id pc.toNat code.toNat
  let s := s.updAct id fun a => { a with seqw := none, evtw := none, fenceS := none, wingStall := false }
  if c.tmask.getLsbD code.toNat && !a.regs.faultH then
    s.updAct id fun a => a.updRegs fun r =>
      { r with faultPc := pc, faultCode := code, faultArg := arg, faultH := true, acpc := c.tvec }
  else
    let s := s.updAct id fun a =>
      { a with life := .trapped (s.claimer a.ctx code),
               regs := { a.regs with faultPc := pc, faultCode := code, faultArg := arg } }
    s.reflect a.ctx code id pc arg

/-- The act whose instruction is executed takes a trap at that instruction. -/
def State.trap (s : State) (code : Byte) (arg : Dbl) : State := s.trapAt s.me s.cur.regs.acpc code arg

/-- R206, R208, R340: a fault that reaches act `id` from an engine: taken at its next instruction boundary, or
reflected as with H = 1 when the act has ended. -/
def State.trapAsync (s : State) (id ctx : Nat) (code : Byte) (arg : Dbl) : State :=
  match (s.act id).life with
  | .running => s.updAct id fun a => { a with asyncTrap := a.asyncTrap ++ [(code, arg)] }
  | .trapped _ => s.updAct id fun a => { a with asyncTrap := a.asyncTrap ++ [(code, arg)] }
  | .switchedOut => s.updAct id fun a => { a with asyncTrap := a.asyncTrap ++ [(code, arg)] }
  | .stopped => s.updAct id fun a => { a with asyncTrap := a.asyncTrap ++ [(code, arg)] }
  | .halted => s.reflect ctx code id (s.act id).regs.acpc arg
  | .free => s.reflect ctx code id (s.act id).regs.acpc arg

/-- R129: loops nest: each active body is 1 word or more, ends within 255 words of LBASE, and of two active
bodies one lies inside the other. -/
def Regs.nested (r : Regs) : Bool :=
  r.activeLevels.all (fun k => r.lb[k.val].len != 0
      && decide (r.lb[k.val].start.toNat + r.lb[k.val].len.toNat ≤ 255)) &&
  r.activeLevels.all fun j => r.activeLevels.all fun k =>
    j == k || (r.inBody j (r.bodyStart k) && r.inBody j (r.bodyEnd k))
      || (r.inBody k (r.bodyStart j) && r.inBody k (r.bodyEnd j))

/-- R113, R282: whether a shootdown that has begun and is not complete covers the page of an address of a context. -/
def State.pageDown (s : State) (ctx : Nat) (va : Dbl) : Bool :=
  s.eng.downs.any fun (c, lo, len) =>
    c == ctx && decide (va.toNat % 2 ^ 57 / 4096 * 4096 < lo + len) && decide (lo < va.toNat % 2 ^ 57 / 4096 * 4096 + 4096)

/-- The word at `pc` for execution, where translation allows it (R113). -/
def fetchQuiet (s : State) (id : Nat) (pc : Dbl) : Option W32 × State :=
  if s.pageDown (s.act id).ctx pc then (none, s)
  else
  let (x, s) := translate s (actDie id) (s.act id).ctx pc .fetch
  match x with
  | .ok pa => (if s.fabricReaches pa then some (BitVec.ofNat 32 (s.mem.readN pa 4)) else none, s)
  | _ => (none, s)

/-- R114, R130: `n` words from `pc` fetched into the loop buffer of act `id`; words that cannot be fetched
raise nothing (R113). -/
def fillLoop (s : State) (id : Nat) (pc : Dbl) : Nat → State
  | 0 => s
  | n + 1 =>
    let (w, s) := fetchQuiet s id pc
    let s := s.updAct id fun a =>
      { a with loopBuf := match w with
          | some w => assocSet pc w a.loopBuf
          | none => assocDel pc a.loopBuf }
    fillLoop s id (pc + 4) n

/-- The number of words from LBASE to the end of the outermost active body. -/
def Regs.loopSpan (r : Regs) : Nat :=
  r.activeLevels.foldl (fun n k => Nat.max n (r.lb[k.val].start.toNat + r.lb[k.val].len.toNat)) 0

/-- R118: the return from a trap handler; bits [1:0] of ACPC are zero (R110). -/
def State.returnFromTrap (s : State) : State :=
  let s := s.updCur fun a =>
    { a with loopBuf := [], issue := a.issue.map fun e => { e with held := false },
             regs := { a.regs with acpc := a.regs.faultPc &&& (~~~(3 : Dbl)), faultH := false } }
  fillLoop s s.me s.cur.regs.lbase s.cur.regs.loopSpan

/-! ## Page requests (R284, R361) -/

/-- R361: whether an entry is available to the tree of `ctx`, and whether it is a reserved one. -/
def State.pageEntry (s : State) (ctx : Nat) : Option Bool :=
  let v := s.rootOf ctx
  let mine := s.eng.pages.filter (·.vdev == v)
  if 512 ≤ mine.length then none
  else if (mine.filter (·.reserved)).length < 2 then some true
  else if (s.eng.pages.filter (!·.reserved)).length < 4096 - 2 * s.sch.vdevs.length then some false
  else none

/-- R403: the entry that passes a request to the page service. -/
def pageBytes (p : PageReq) : List Byte :=
  leBytes 8 p.va.toNat
    ++ leBytes 8 (p.ctx % 4096 + p.kind * 2 ^ 12 + p.die * 2 ^ 16 + p.tile * 2 ^ 20)
    ++ leBytes 8 (p.tag % 65536) ++ leBytes 8 0

/-- R403: the request passed on through the ring that the boot record names, where it names one and has room. -/
def State.passPage (s : State) (p : PageReq) : State :=
  let d := s.leader
  let ring := (s.cdie d).pageRings.1
  let taken (s : State) : State :=
    let ps := s.eng.pages.map fun x => if x.tag = p.tag then { x with passed := true } else x
    { s with eng := { s.eng with pages := ps } }
  if ring = 0 || (s.cdie d).failed then s
  else match ringPutPhys s ring 5 (pageBytes p) with
    | some s => taken s
    | none => s

/-- R361, R403: the requests for which the ring had no room are passed on. -/
def State.passPages (s : State) : State :=
  (s.eng.pages.filter fun p => !p.passed).foldl (fun s p => s.passPage p) s

/-- R284, R361: the request of `who` for the page of `va`, joined to an outstanding one of the same region,
or posted; `none` when no entry is available. [log 38 DESIGN CHOICE] -/
def State.postPage (s : State) (who : Waiter) (ctx : Nat) (va : Dbl) (k : Access) (die tile act : Nat) :
    Option State :=
  let page := va.toNat % 2 ^ 57 / 4096
  if s.eng.pages.any fun p => p.act == act && p.ctx == ctx && p.page == page then
    let ps := s.eng.pages.map fun p =>
      if p.act == act && p.ctx == ctx && p.page == page && !p.waiters.contains who then
        { p with waiters := p.waiters ++ [who] } else p
    some { s with eng := { s.eng with pages := ps } }
  else match s.pageEntry ctx with
  | none => none
  | some res =>
    let p : PageReq :=
      { tag := s.eng.nextTag, ctx := ctx, va := va, page := page, passed := false, kind := k.code, die := die, tile := tile, act := act,
        vdev := s.rootOf ctx, reserved := res, posted := s.cycle, waiters := [who] }
    let s := { s with eng := { s.eng with pages := s.eng.pages ++ [p], nextTag := (s.eng.nextTag + 1) % 65536 } }
    some (((s.passPage p).signal 5).count ctx 0x0050 1 |>.trace 0x07 ctx die act va.toNat 0)

/-- R125, R207: whether the page service has refused `who` the page of `va`. -/
def State.pageRefused (s : State) (who : Waiter) (va : Dbl) : Bool :=
  s.eng.refused.contains (who, va.toNat % 2 ^ 57 / 4096)

/-- A refusal that has been delivered is forgotten. -/
def State.clearRefused (s : State) (who : Waiter) (va : Dbl) : State :=
  { s with eng := { s.eng with refused := s.eng.refused.filter (· ≠ (who, va.toNat % 2 ^ 57 / 4096)) } }

/-- The outcome of an access: where it goes, a wait, or a fault. -/
inductive Got where
  | ok (pa : Nat)
  | wait
  | fault (code : Byte) (arg : Dbl)
deriving DecidableEq, Repr

/-- R284: a region's request for the page of an address is outstanding, and no slice of the die holds its translation. -/
def State.awaitsPage (s : State) (die ctx act : Nat) (va : Dbl) : Bool :=
  let page := va.toNat % 2 ^ 57 / 4096
  s.eng.pages.any (fun p => p.act == act && p.ctx == ctx && p.page == page)
    && !(s.eng.slices.any fun e => e.die == die && e.ctx == ctx && e.page == page)

/-- R124, R125, R207: one access through the fabric, with a miss turned into a page request of `who`. It waits while its page is
outstanding for the region (R284), or while no link leads to the memory (R18). [log 122 DESIGN CHOICE] -/
def accessAs (s : State) (who : Waiter) (die tile ctx act : Nat) (va : Dbl) (k : Access) : Got × State :=
  if s.awaitsPage die ctx act va then (.wait, (s.postPage who ctx va k die tile act).getD s)
  else
  match translate s die ctx va k with
  | (.ok pa, t) => if s.fabricReaches pa then (.ok pa, t) else (.wait, s)
  | (.fault c a, s) => (.fault c a, s)
  | (.miss, s) =>
    if s.pageRefused who va then (.fault 0x10 va, s.clearRefused who va)
    else match s.postPage who ctx va k die tile act with
    | some s => (.wait, s)
    | none => (.fault 0x13 va, s)

/-! ## Tasks and ranges (R288 to R291, R295) -/

/-- The open task of an act (R295), in the domain of its current context. -/
def taskOf (s : State) (a : Act) : Option Task :=
  if a.taskOpen then (s.ctx a.ctx).tasks.find? fun t => t.stamp == a.regs.stamp.toNat else none

/-- The state with a task of a domain changed. -/
def State.updTask (s : State) (ctx stamp : Nat) (f : Task → Task) : State :=
  s.updCtx ctx fun c => { c with tasks := c.tasks.map fun t => if t.stamp = stamp then f t else t }

/-- R149: whether the act's task is speculative: open, and its step 1 not yet taken. -/
def speculative (s : State) (a : Act) : Bool :=
  match taskOf s a with
  | some t => !t.step1
  | none => false

/-- The number of 64-byte lines by which a range must grow to hold line `l`. -/
def growth (r : Range) (l : Nat) : Nat := (r.lo - l) + (l - r.hi)

/-- R290: a range entered in those of a task, where those of one kind that an act's prompter keeps may be 16. -/
def widen16 (rs : List Range) (new : Range) : List Range :=
  let same := rs.filter fun r => r.write == new.write && r.space == new.space && r.src == new.src && r.act == new.act
  if same.any fun r => decide (r.lo ≤ new.lo) && decide (new.hi ≤ r.hi) then rs
  else if same.length < 16 then rs ++ [new]
  else match argMin (growth · new.lo) same with
  | none => rs ++ [new]
  | some near => rs.map fun r => if r = near then { r with lo := Nat.min r.lo new.lo, hi := Nat.max r.hi new.hi } else r

/-- R288, R290: an access of the prompter of act `id` to `n` bytes at `va` recorded in a task. -/
def State.recordIn (s : State) (id ctx stamp : Nat) (write : Bool) (va : Dbl) (n : Nat) : State :=
  let r : Range :=
    { act := id, also := [], write := write, space := false, lo := va.toNat / 64, hi := (va.toNat + n - 1) / 64,
      src := 64 + actSlot id, chan := 0, due := false }
  s.updTask ctx stamp fun t => { t with ranges := widen16 t.ranges r }

/-- R288, R290: the prompter's access to `n` bytes at `va` recorded in its task. -/
def State.recordPrompter (s : State) (id : Nat) (write : Bool) (va : Dbl) (n : Nat) : State :=
  let a := s.act id
  match taskOf s a with
  | none => s
  | some t => s.recordIn id a.ctx t.stamp write va n

/-- R126, R227: whether the range scoreboard makes an access to bytes `lo` to `hi` wait. -/
def scoreBlocks (s : State) (ctx : Nat) (space write : Bool) (lo hi : Nat) : Bool :=
  s.eng.score.any fun r => r.ctx == ctx && r.space == space && (r.write || write)
    && decide (r.lo ≤ hi / 64) && decide (lo / 64 ≤ r.hi)

/-! ## Wing lines (R301) -/

/-- The staged byte of a task for a virtual address, if it has staged one. -/
def stagedByte (t : Task) (va : Nat) : Option Byte :=
  match t.lines.find? fun l => l.line == va / 64 with
  | none => none
  | some l => assoc? (va % 64) l.bytes

/-- `n` bytes at `va`, whose physical address is `pa`, as a task's load sees them (R301). -/
def readMerged (m : Mem) (t : Option Task) (va pa : Nat) : Nat → Nat
  | 0 => 0
  | n + 1 =>
    ((t.bind fun t => stagedByte t va).getD (m.read pa)).toNat + 256 * readMerged m t (va + 1) (pa + 1) n

/-- The bytes of a store merged into a wing line (R301). -/
def mergeBytes (bs : List (Nat × Byte)) (off : Nat) : Nat → Nat → List (Nat × Byte)
  | 0, _ => bs
  | n + 1, v => mergeBytes (assocSet off (BitVec.ofNat 8 v) bs) (off + 1) n (v / 256)

/-- R303, R373: the number of the mark that opened the interval in which an act runs; the launch point is 0. -/
def Act.interval (a : Act) : Byte :=
  match a.cutNew, a.cut with
  | some c, _ => c.num
  | none, some c => c.num
  | none, none => 0

/-- A stream bank. -/
def State.bank (s : State) (key : Nat) : Bank :=
  (assoc? key s.fab.banks).getD { bank := key % 512, use := .gated, bytes := [], wake := 0, poison := [] }

/-- R268: the wing banks of a domain on a die. -/
def State.wingBanks (s : State) (ctx die : Nat) : Nat :=
  (s.fab.banks.filter fun b => b.1 / 512 == die && b.2.use == .wings ctx).length

/-- R274: those of them whose wake has ended. -/
def State.wingsAwake (s : State) (ctx die : Nat) : Nat :=
  (s.fab.banks.filter fun b => b.1 / 512 == die && b.2.use == .wings ctx && decide (b.2.wake ≤ s.cycle)).length

/-- The wing lines a domain has staged on a die. -/
def State.wingLines (s : State) (ctx die : Nat) : Nat :=
  (s.ctx ctx).tasks.foldl (fun n t => n + (t.lines.filter (·.die == die)).length) 0

/-- R274: a store that would find a line once banks that are being woken are awake. -/
def State.wingsWake (s : State) (id : Nat) : Bool :=
  let c := (s.act id).ctx
  decide (s.wingLines c (actDie id) < 512 * s.wingBanks c (actDie id)) && !decide (s.wingLines c (actDie id) < 512 * s.wingsAwake c (actDie id))

/-- R301, R302, R303: a store staged by the task of act `id`; `none` while the wings are full. A line stays in the wings of the die of its
first write. [log 128 DESIGN CHOICE] -/
def State.stage (s : State) (id : Nat) (t : Task) (va n v : Nat) : Option State :=
  let a := s.act id
  let line := va / 64
  if t.lines.any (·.line == line) then
    let merge : WingLine → WingLine := fun l =>
      if l.line = line then
        { l with bytes := mergeBytes l.bytes (va % 64) n v, bad := if n % 8 = 0 then l.bad.filter (· ≠ va % 64 / 8) else l.bad } else l
    some (s.updTask a.ctx t.stamp fun t => { t with lines := t.lines.map merge })
  else if s.wingLines a.ctx (actDie id) < 512 * s.wingsAwake a.ctx (actDie id) then
    let l : WingLine :=
      { die := actDie id, act := id, line := line, bytes := mergeBytes [] (va % 64) n v, mark := a.interval,
        nth := a.marks, bad := [] }
    some (s.updTask a.ctx t.stamp fun t => { t with lines := t.lines ++ [l] })
  else none

end Sys2Proof.Machine
end

