-- ==== Sys2Proof/Machine/Operands.lean ====
section
/-! DEFINITION. The operand forms of the control stream: immediates, effective addresses, branch targets, the
word-sized operands of R120, and the fields of stream commands (R92, R213, R224, R228). -/
namespace Sys2Proof.Machine

/-- R122, R123: a signed 16-bit immediate. -/
def imm16 (i : BitVec 16) : Dbl := i.signExtend 64

/-- R122: a zero-extended 16-bit immediate. -/
def immz16 (i : BitVec 16) : Dbl := i.zeroExtend 64

/-- R123: the effective address, computed with wrapping. -/
def State.ea (s : State) (a : Reg) (i : BitVec 16) : Dbl := s.g a + imm16 i

/-- R74: the target of B.cc. -/
def State.branchTarget (s : State) (o : BitVec 11) : Dbl := s.cur.regs.acpc + 4 * o.signExtend 64

/-- R74: the target of JAL. -/
def State.jalTarget (s : State) (i : BitVec 21) : Dbl := s.cur.regs.acpc + 4 * i.signExtend 64

/-- R120: an operand of a form with the .s32 qualifier is bits [31:0] sign-extended. -/
def opnd (w : Bool) (v : Dbl) : Dbl := if w then sext32 v else v

/-- R120: the result of a form with the .s32 qualifier is bits [31:0] sign-extended. -/
def result (w : Bool) (x : Int) : Dbl :=
  if w then sext32 (BitVec.ofInt 64 x) else BitVec.ofInt 64 x

/-- R120: the shift count. -/
def shiftCount (w : Bool) (b : Dbl) : Nat := if w then b.toNat % 32 else b.toNat % 64

/-- R116: the instruction word as FAULTARG. -/
def wordArg (i : Instr) : Dbl := ((encode i).getD 0).zeroExtend 64

/-! ## Stream commands (R92) -/

def cmdOpc (q : Quad) : Nat := (q.extractLsb' 120 8).toNat
def cmdFlg (q : Quad) : Byte := q.extractLsb' 112 8
def cmdTid (q : Quad) : Nat := (q.extractLsb' 104 8).toNat
def cmdPq (q : Quad) : Nat := (q.extractLsb' 96 8).toNat
def cmdCnt (q : Quad) : Nat := (q.extractLsb' 64 32).toNat
def cmdOps (q : Quad) : Dbl := q.extractLsb' 0 64

/-- R2: the field of a double, as a number. -/
def bits (v : Dbl) (lo len : Nat) : Nat := (v.toNat / 2 ^ lo) % 2 ^ len

/-- R213: START of a stream command, or B0 of SCALE. -/
def cmdStart (q : Quad) : Nat := bits (cmdOps q) 32 32

/-- R213: the data port, and the index port. -/
def cmdD (q : Quad) : Nat := (cmdFlg q).toNat % 4
def cmdX (q : Quad) : Nat := (cmdFlg q).toNat / 4 % 4
def cmdCL (q : Quad) : Bool := (cmdFlg q).getLsbD 4
def cmdSC (q : Quad) : Bool := (cmdFlg q).getLsbD 5
def cmdCV (q : Quad) : Nat := (cmdFlg q).toNat / 64

/-- R228: N, RANK and GRP of a collective command. -/
def colN (q : Quad) : Nat := bits (cmdOps q) 16 8
def colRank (q : Quad) : Nat := bits (cmdOps q) 8 8
def colGrp (q : Quad) : Nat := bits (cmdOps q) 0 8

end Sys2Proof.Machine
end

