-- ==== Sys2Proof/Machine/Flags.lean ====
section
/-! DEFINITION. The status fields of an act and how events set them: SCRFLT and SCRST (R119, R271), PWRST
(R119, R319, R321), UNDECL (R322), FDEM (R143), the SCENE register (R119, R256) and the system registers as
MFS reads and MTS writes them. -/
namespace Sys2Proof.Machine

/-- R271: an out-of-window scratch access by a stream of the region, recorded. -/
def Regs.outOfWindow (r : Regs) (write : Bool) (off : Dbl) : Regs :=
  if r.scrV then { r with scrMore := true }
  else { r with scrV := true, scrWr := write, scrflt := off }

/-- R119: an MTS to SCRFLT or SCRST clears ADDR, MORE, WR and V together. -/
def Regs.clearScratch (r : Regs) : Regs :=
  { r with scrflt := 0, scrMore := false, scrWr := false, scrV := false }

/-- R319: one throttle event, saturating at 65535. -/
def Regs.throttle (r : Regs) : Regs :=
  { r with thrc := if r.thrc = 0xFFFF then r.thrc else r.thrc + 1 }

/-- R322: UNDECL.NJ. -/
def Regs.undecl (r : Regs) : Dbl := BitVec.ofNat 64 (Nat.min (r.undeclPj / (1000 * r.undeclDen)) (2 ^ 64 - 1))

/-- R321: a window is empty with length 0 or intensity 0. -/
def CueWin.empty (c : CueWin) : Bool := c.len == 0 || c.intensity == 0

/-- R321: PWRST.CUEP: a pending or running window that is not empty. -/
def cuep (a : Act) : Bool := a.cues.any fun c => !c.empty

/-- R269: the window of a region, in 4 KiB units. -/
def wsize (a : Act) : Nat := 8 * a.window.length

/-- A Boolean as a field of a register at bit `n`. -/
def flag (b : Bool) (n : Nat) : Dbl := if b then BitVec.ofNat 64 (2 ^ n) else 0

/-- R256: HELD is 1 in IN FORCE and RETIRING. -/
def slotHeld (s : SceneSlot) : Bool := s.st == .inForce || s.st == .retiring

/-- R255, R256: whether a load of a RETIRING slot has begun in some tile. -/
def loadBegun (s : SceneSlot) : Bool :=
  match s.job with
  | some j => j.begun
  | none => false

/-- R256: LOADED is 1 in LOADED and IN FORCE, and in RETIRING while no load has begun. -/
def slotLoaded (s : SceneSlot) : Bool :=
  s.st == .loaded || s.st == .inForce || (s.st == .retiring && !loadBegun s)

/-- R119: the SCENE register. -/
def sceneReg (r : RegionSt) : Dbl :=
  BitVec.ofNat 64 (r.cur % 4) ||| flag r.arm 2 ||| BitVec.ofNat 64 (if r.arm then r.tgt % 4 * 8 else 0)
    ||| flag (slotLoaded r.slots[0]) 8 ||| flag (slotLoaded r.slots[1]) 9
    ||| flag (slotLoaded r.slots[2]) 10 ||| flag (slotLoaded r.slots[3]) 11
    ||| flag (slotHeld r.slots[0]) 12 ||| flag (slotHeld r.slots[1]) 13
    ||| flag (slotHeld r.slots[2]) 14 ||| flag (slotHeld r.slots[3]) 15

/-- R119: LBn. -/
def LoopReg.word (l : LoopReg) : Dbl :=
  l.count ++ (0 : BitVec 8) ++ l.len ++ l.start ++ (0 : BitVec 7) ++ BitVec.ofBool l.on

/-- R119: LBn as MTS writes it; the reserved fields are ignored. -/
def LoopReg.ofWord (v : Dbl) : LoopReg :=
  { count := v.extractLsb' 32 32, len := v.extractLsb' 16 8, start := v.extractLsb' 8 8, on := v.getLsbD 0 }

/-- R318: the token count of the region of an act; a spawned act draws on the region of its root. -/
def Act.regionRoot (a : Act) : Nat := a.root.getD a.id

/-- R80, R119: the system register numbered `n`, as MFS reads it, reserved bits as zero. -/
def readSys (s : State) (n : Nat) : Dbl :=
  let a := s.cur
  let r := a.regs
  match n with
  | 0x00 => BitVec.ofNat 64 (a.id % 512)
  | 0x01 => BitVec.ofNat 64 (a.ctx % 4096)
  | 0x02 => BitVec.ofNat 64 ((s.ctx a.ctx).depth % 16)
  | 0x03 => sceneReg a.region
  | 0x04 => r.stamp
  | 0x10 => r.scrflt
  | 0x11 => BitVec.ofNat 64 (wsize a * 2 ^ 32) ||| flag r.scrMore 2 ||| flag r.scrWr 1 ||| flag r.scrV 0
  | 0x12 => flag (cuep a) 48 ||| BitVec.ofNat 64 (r.thrc.toNat * 2 ^ 32)
              ||| BitVec.ofNat 64 ((s.act a.regionRoot).tokens % 2 ^ 32)
  | 0x13 => r.undecl
  | 0x14 => flag r.fdem 0
  | 0x20 => r.faultPc
  | 0x21 => flag r.faultH 8 ||| r.faultCode.zeroExtend 64
  | 0x22 => r.faultArg
  | 0x30 => r.lbase
  | 0x31 => r.lb[0].word
  | 0x32 => r.lb[1].word
  | 0x33 => r.lb[2].word
  | 0x34 => r.lc[0].zeroExtend 64
  | 0x35 => r.lc[1].zeroExtend 64
  | 0x36 => r.lc[2].zeroExtend 64
  | _ => 0

/-- R117: the registers that have no RW or RS field. -/
def sysReadOnly (n : Nat) : Bool := n ≤ 0x04

/-- R117: the registers that MTS may write only while H is 1. -/
def sysLoopState (n : Nat) : Bool := 0x30 ≤ n && n ≤ 0x33

/-- R119: the registers after an MTS of `v` to the system register numbered `n`. -/
def Regs.writeSys (r : Regs) (n : Nat) (v : Dbl) : Regs :=
  match n with
  | 0x10 | 0x11 => r.clearScratch
  | 0x12 => { r with thrc := 0 }
  | 0x13 => { r with undeclPj := 0, undeclDen := 1 }
  | 0x14 => { r with fdem := false }
  | 0x20 => { r with faultPc := v }
  | 0x21 => { r with faultCode := v.extractLsb' 0 8 }
  | 0x22 => { r with faultArg := v }
  | 0x30 => { r with lbase := v &&& ~~~(3 : Dbl) }
  | 0x31 => { r with lb := r.lb.set 0 (LoopReg.ofWord v) }
  | 0x32 => { r with lb := r.lb.set 1 (LoopReg.ofWord v) }
  | 0x33 => { r with lb := r.lb.set 2 (LoopReg.ofWord v) }
  | 0x34 => { r with lc := r.lc.set 0 (v.extractLsb' 0 32) }
  | 0x35 => { r with lc := r.lc.set 1 (v.extractLsb' 0 32) }
  | 0x36 => { r with lc := r.lc.set 2 (v.extractLsb' 0 32) }
  | _ => r

end Sys2Proof.Machine
end

