-- ==== Sys2Proof/Machine/Prompter.lean ====
section
/-! DEFINITION. Shared operations of the prompter's instructions: accesses (R123 to R127), staging (R301), the
replay log (R375, R376), atomics (R144, R145, R292, R293) and tasks (R146, R295, R296). -/
namespace Sys2Proof.Machine

/-- What the work of an instruction comes to: done with a result, waiting, or a trap. -/
inductive Did where
  | done (s : State) (v : Dbl)
  | wait (s : State)
  | trap (s : State) (code : Byte) (arg : Dbl)

/-- The state after an instruction that writes its result to g`d`; R111: a waiting instruction holds ACPC. -/
def Did.finish (d : Reg) : Did → State
  | .done s v => (s.setG d v).retire
  | .wait s => s
  | .trap s c a => s.trap c a

/-- The state after an instruction that writes no register. -/
def Did.end : Did → State
  | .done s _ => s.retire
  | .wait s => s
  | .trap s c a => s.trap c a

/-- R146: after TASK.DONE an instruction that reads or writes memory needs an open task. [log 121 DEDUCED] -/
def needTask (i : Instr) (s : State) (f : State → Did) : Did :=
  if s.cur.taskOpen || !s.cur.taskDone then f s else .trap s 0x01 (wordArg i)

/-- R149, R279, R304: an instruction that stalls until the task of its act is oldest. -/
def whenOldest (s : State) (f : State → Did) : Did :=
  if speculative s s.cur then .wait s else f s

/-- R103, R96: the tile index of an interior tile. -/
def tileIndex (x y : Nat) : Nat := y * 16 + x

/-- An atomic touches one of `n` bytes at `va`. -/
def AtomReq.meets (r : AtomReq) (va n : Nat) : Bool :=
  decide (r.va.toNat < va + n) && decide (va < r.va.toNat + if r.w then 4 else 8)

/-- R300, R305: an atomic that returned no value, of the task that an act runs, is still to be performed on one of `n` bytes at `va`: it
goes before a later access of the task. [log 131 DEDUCED] -/
def awaitsAtomic (s : State) (a : Act) (va n : Nat) : Bool :=
  match taskOf s a with
  | none => false
  | some t => (t.deferred ++ s.eng.atoms.filter fun r => r.ctx == a.ctx && r.stamp == t.stamp).any (·.meets va n)

/-- R124, R125: the prompter's access to `n` bytes at `ea`, as an atomic makes it. The tile that a page request of a prompter names is
a free value. -/
def promptReach (s : State) (ea : Dbl) (n : Nat) (k : Access) : Got × State :=
  if ea.toNat % n ≠ 0 then (.fault 0x03 ea, s)
  else
    let a := s.cur
    match accessAs s (.act s.me) (actDie s.me) (Config.freeNat s.fresh % 320) a.ctx s.me ea k with
    | (.wait, s) => (.wait, { s with fresh := s.fresh + 1 })
    | (.fault c x, s) => (.fault c x, s)
    | (.ok pa, s) =>
      if scoreBlocks s a.ctx false (k == .write) ea.toNat (ea.toNat + n - 1) then (.wait, s)
      else match if k == .write then none else s.firstPoison pa n with
        | some p => (.fault 0x50 (BitVec.ofNat 64 p), s)
        | none => (.ok pa, s)

/-- R124, R125, R300: the prompter's load, store or fetch of `n` bytes at `ea`. A load or store comes after the atomics of its task. -/
def promptAccess (s : State) (ea : Dbl) (n : Nat) (k : Access) : Got × State :=
  match promptReach s ea n k with
  | (.ok pa, t) => if k != .fetch && awaitsAtomic t t.cur ea.toNat n then (.wait, t) else (.ok pa, t)
  | x => x

/-- R426, R427: a load reads a granule of a staged line that has an uncorrectable error. -/
def stagedBad (t : Option Task) (va n : Nat) : Bool :=
  match t with
  | none => false
  | some t => t.lines.any fun l => l.line == va / 64 && l.bad.any fun g => decide (va % 64 < 8 * g + 8) && decide (8 * g < va % 64 + n)

/-- R123, R126: a load of `n` bytes at `ea`: its value, with the task's own staged bytes (R301). -/
def loadAt (s : State) (ea : Dbl) (n : Nat) : Did :=
  match promptAccess s ea n .read with
  | (.wait, s) => .wait s
  | (.fault c a, s) => .trap s c a
  | (.ok pa, s) =>
    if stagedBad (taskOf s s.cur) ea.toNat n then .trap s 0x50 (BitVec.ofNat 64 pa)
    else .done (s.recordPrompter s.me false ea n) (BitVec.ofNat 64 (readMerged s.mem (taskOf s s.cur) ea.toNat pa n))

/-- R302: the stalled tasks of lower stamps on the die, to which freed wing lines go first. -/
def wingsAhead (s : State) (a : Act) : Nat :=
  s.acts.countP fun p => p.2.wingStall && p.1 != a.id && p.2.ctx == a.ctx && actDie p.1 == actDie a.id
    && decide (p.2.regs.stamp.toNat < a.regs.stamp.toNat)

/-- R302: a store finds a line beyond those that are due to stalled tasks of lower stamps. -/
def wingTurn (s : State) (a : Act) : Bool :=
  decide (s.wingLines a.ctx (actDie a.id) + wingsAhead s a < 512 * s.wingsAwake a.ctx (actDie a.id))

/-- R301, R302: a speculative store of the low `n` bytes of `v` at `va`, staged or stalled for want of a line. -/
def stageStore (s : State) (t : Task) (va n v : Nat) : Option State :=
  if t.lines.any (·.line == va / 64) || wingTurn s s.cur then s.stage s.me t va n v else none

/-- R302: a store stalls; the staging-overflow count rises once for it. -/
def State.wingStalls (s : State) : State :=
  if s.cur.wingStall then s else (s.updCur fun a => { a with wingStall := true }).count s.cur.ctx 0x0031 1

/-- R123, R126, R149, R274, R301: a store of the low `n` bytes of `v` at `ea`: staged by a speculative task, and
otherwise performed. -/
def storeAt (s : State) (ea : Dbl) (n v : Nat) : Did :=
  match promptAccess s ea n .write with
  | (.wait, s) => .wait s
  | (.fault c a, s) => .trap s c a
  | (.ok pa, s) =>
    if speculative s s.cur then
      match taskOf s s.cur with
      | none => .wait s
      | some t => match stageStore s t ea.toNat n v with
        | none => .wait (if s.wingsWake s.me then s else s.wingStalls)
        | some s => .done ((s.updCur fun a => { a with wingStall := false }).recordPrompter s.me true ea n) 0
    -- R302: a store that was stalled is performed directly once its task is oldest.
    else .done (((s.updCur fun a => { a with wingStall := false }).store pa n v).recordPrompter s.me true ea n) 0

/-- The work of `f` after that of `d`, when `d` is done. -/
def Did.andThen (d : Did) (f : State → Dbl → Did) : Did :=
  match d with
  | .done s v => f s v
  | .wait s => .wait s
  | .trap s c a => .trap s c a

/-! ## The replay log (R375, R376) -/

/-- R375: one mark forced when none is in flight. -/
def Act.forceMark (a : Act) : Act :=
  if a.cutRun.isNone && a.markDue == 0 then { a with markDue := 1 } else a

/-- R376: the log with its first entry of a kind that no replay has taken marked as taken, and that entry. -/
def takeLog (cmd : Bool) : List LogEntry → Option (LogEntry × List LogEntry)
  | [] => none
  | e :: l =>
    if e.cmd == cmd && !e.used then some (e, { e with used := true } :: l)
    else match takeLog cmd l with
      | none => none
      | some (x, l') => some (x, e :: l')

/-- R376: the logged outcome that a replaying act takes next. -/
def Act.replayed (a : Act) (cmd : Bool) : Option (Dbl × Act) :=
  if !a.replay then none
  else match takeLog cmd a.log with
    | none => none
    | some (e, l) => some (e.value, { a with log := l, replay := l.any fun e => !e.used })

/-- R375: an effect of a task entered in the log. -/
def Act.logs (a : Act) (cmd : Bool) (ctx stamp : Nat) (v : Dbl) : Act :=
  { a with log := a.log ++ [{ cmd := cmd, value := v, used := true, pre := false, ctx := ctx, stamp := stamp }] }

/-- R375, R376: an instruction with an effect outside its region: a replay takes the logged result by `again`;
a full log makes the instruction wait for the next cut; otherwise `f` performs it and its result is logged. -/
def withLog (s : State) (again : State → Dbl → Did) (f : State → Did) : Did :=
  match s.cur.replayed false with
  | some (v, a) => again (s.updCur fun _ => a) v
  | none =>
    if 64 ≤ s.cur.log.length then .wait (s.updCur Act.forceMark)
    else match f s with
      | .done t v => .done (t.updCur (·.logs false s.cur.ctx s.cur.regs.stamp.toNat v)) v
      | .wait s => .wait s
      | .trap s c a => .trap s c a

/-! ## Atomics (R144, R292, R293) -/

/-- R144: the new value of the memory operand, on 64 bits or on 32. -/
def atomicNew (op : AtomicOp) (w : Bool) (old v expected : Nat) : Nat :=
  let n := if w then 32 else 64
  let o : Int := (BitVec.ofNat n old).toInt
  let x : Int := (BitVec.ofNat n v).toInt
  match op with
  | .add => (old + v) % 2 ^ n
  | .and => old &&& v
  | .or => old ||| v
  | .xor => old ^^^ v
  | .min => if o ≤ x then old else v
  | .max => if o ≤ x then v else old
  | .minz => Nat.min old v
  | .maxz => Nat.max old v
  | .swap => v
  | .cas => if old = expected then v else old

/-- R292: the home die and block of a physical address. -/
def homeOf (pa : Nat) : Nat × Nat :=
  let die := if pa / 2 ^ 40 = 8 then 0 else if pa / 2 ^ 40 = 9 then 3 else pa / 2 ^ 40
  (die, (xorBits pa 6 9).toNat + 2 * (xorBits pa 7 9).toNat + 4 * (xorBits pa 8 8).toNat
    + 8 * (xorBits pa 9 8).toNat)

/-- R144: an atomic performed in memory, and the old value. Operands of a 32-bit form are the low halves of the registers, the expected
one of ACAS among them. [log 129 DEDUCED] -/
def State.atomic (s : State) (r : AtomReq) : Nat × State :=
  let n := if r.w then 4 else 8
  let old := s.mem.readN r.pa n
  (old, s.store r.pa n (atomicNew r.op r.w old (r.operand.toNat % 256 ^ n) (r.expected.toNat % 256 ^ n)))

/-- R293: the order in which an engine takes waiting requests. -/
def AtomReq.order (r : AtomReq) : Nat := ((r.stamp * 256 + r.port) * 16 + r.srcDie) * 16 + r.srcBlk

/-- R227: the range scoreboard holds a request. -/
def AtomReq.blocked (r : AtomReq) (s : State) : Bool :=
  scoreBlocks s r.ctx false true r.va.toNat (r.va.toNat + (if r.w then 4 else 8) - 1)

/-- R292, R293: the requests that wait at the engine of a block. -/
def State.atomsAt (s : State) (die blk : Nat) : List AtomReq := s.eng.atoms.filter fun r => r.die == die && r.blk == blk

/-- R18, R227, R293: the request that the engine of a block takes next: the lowest of those that nothing holds, whose memory a link
leads to, and that no earlier one of their act precedes. -/
def nextAtomic (s : State) (die blk : Nat) : Option AtomReq :=
  let rs := s.atomsAt die blk
  argMin AtomReq.order (rs.filter fun r => !(r.blocked s) && s.fabricReaches r.pa && rs.find? (·.act == r.act) == some r)

/-- R293: the engine of a block performs one request. -/
def State.serviceAtomic (s : State) (die blk : Nat) : State :=
  match nextAtomic s die blk with
  | none => s
  | some r =>
    let s := { s with eng := { s.eng with atoms := s.eng.atoms.erase r } }
    (s.atomic r).2

/-- R305: two atomics of one act, or of one task. -/
def AtomReq.kin (q r : AtomReq) : Bool := q.act == r.act || (q.ctx == r.ctx && q.stamp == r.stamp)

/-- R293, R305: the engine of a block performs the requests that go before `r`: those lower in its order, and those of its act and its
task. -/
def State.drainBefore (s : State) (r : AtomReq) : Nat → State
  | 0 => s
  | n + 1 =>
    if (s.atomsAt r.die r.blk).any fun q => decide (q.order ≤ r.order) || q.kin r then
      (s.serviceAtomic r.die r.blk).drainBefore r n
    else s

/-- The request of an atomic instruction of the act `id` (R145, R292). -/
def atomicReq (s : State) (id : Nat) (op : AtomicOp) (w : Bool) (va : Dbl) (pa : Nat) (v e : Dbl) : AtomReq :=
  { die := (homeOf pa).1, blk := (homeOf pa).2, stamp := (s.act id).regs.stamp.toNat, port := 64 + actSlot id,
    srcDie := actDie id, srcBlk := actBlk id, act := id, ctx := (s.act id).ctx, op := op, w := w, va := va, pa := pa,
    operand := v, expected := e }

/-- R112, R144, R145, R149, R305, R375: an atomic instruction: one that returns no value is deferred by a speculative task, which the replay
log holds too, as a rollback leaves it placed; every other is performed once the task is oldest, behind the requests that go before it at
its engine. [log 130 DEDUCED] -/
def atomicAt (i : Instr) (s : State) (op : AtomicOp) (w : Bool) (d a b : Reg) : Did :=
  needTask i s fun s =>
  if d ≠ 0 && speculative s s.cur then .wait s
  else
    let n := if w then 4 else 8
    let ea := s.g a
    match promptReach s ea n .write with
    | (.wait, s) => .wait s
    | (.fault c x, s) => .trap s c x
    | (.ok pa, s) =>
      let r := atomicReq s s.me op w ea pa (s.g b) (s.g d)
      if speculative s s.cur then
        withLog s (fun s v => .done s v) fun s => .done ((s.updTask s.cur.ctx s.cur.regs.stamp.toNat fun t => { t with deferred := t.deferred ++ [r] })
          |>.recordPrompter s.me true ea n) 0
      else
        withLog s (fun s v => .done s v) fun s =>
          let s := s.drainBefore r s.eng.atoms.length
          if (s.atomsAt r.die r.blk).any (·.kin r) then .wait s
          else
          let (old, s) := s.atomic r
          let s := s.recordPrompter s.me true ea n
          let s := if d = 0 then s else s.recordPrompter s.me false ea n
          .done s (if w then sext32 (BitVec.ofNat 64 old) else BitVec.ofNat 64 old)

/-! ## Tasks (R146, R295, R296) -/

/-- R148: what a task checkpoint of an act holds. -/
def Regs.checkpoint (r : Regs) (stack : List Nat) : Checkpoint :=
  { ctxStack := stack, acpc := r.acpc, g := r.g, c := r.c, lbase := r.lbase, lb := r.lb, lc := r.lc }

/-- R295: the act ends its part of its current task. -/
def State.endPart (s : State) (id : Nat) : State :=
  let a := s.act id
  match taskOf s a with
  | none => s
  | some t =>
    (s.updTask a.ctx t.stamp fun t => { t with parts := t.parts.filter (· ≠ id) }).updAct id fun a =>
      { a with taskOpen := false, prevStamp := t.stamp }

/-- R295, R296: a task with stamp `n` opened for act `id` in the domain of its current context. [log 134 DESIGN CHOICE] -/
def State.openTask (s : State) (id n : Nat) : State :=
  let t : Task :=
    { no := s.eng.serial, stamp := n, act := id, parts := [id], step1 := false, checks := [], lines := [], deferred := [],
      ranges := [], accs := [], aborts := 0 }
  let s := { s with eng := { s.eng with serial := s.eng.serial + 1 } }
  let s := s.updCtx (s.act id).ctx fun c =>
    { c with tasks := c.tasks ++ [t], highest := Nat.max c.highest n, reserved := c.reserved.filter (· ≠ n) }
  s.updAct id fun a => { a with taskOpen := true, taskDone := false, regs := { a.regs with stamp := BitVec.ofNat 64 n } }

/-- R146, R148: the checkpoint of act `id` taken as its registers stand. -/
def State.takeCheckpoint (s : State) (id : Nat) : State :=
  let a := s.act id
  s.updTask a.ctx a.regs.stamp.toNat fun t => { t with checks := assocSet id (a.regs.checkpoint a.ctxStack) t.checks }

/-- R296: whether the domain refuses the stamp. -/
def stampTaken (c : Ctx) (n : Nat) : Bool := c.tasks.any (·.stamp == n) || decide (n ≤ c.committed)

/-- The stamp of the act's current task, and otherwise of its last task (R296). -/
def Act.lastStamp (a : Act) : Nat := if a.taskOpen then a.regs.stamp.toNat else a.prevStamp

/-- R297: a task is oldest. -/
def oldest (s : State) (ctx : Nat) (t : Task) : Bool :=
  let c := s.ctx ctx
  (c.tasks.all fun u => u.stamp == t.stamp || decide (t.stamp < u.stamp)) &&
  (c.reserved.all fun r => decide (t.stamp < r)) &&
  s.acts.all fun p => p.2.ctx != ctx || p.2.taskOpen || decide (t.stamp < p.2.prevStamp + 1) ||
    p.2.life == .free || p.2.life == .halted

end Sys2Proof.Machine
end

