-- ==== Sys2Proof/Machine/Alu.lean ====
section
/-! DEFINITION. Arithmetic and logic on general registers (R120 to R122). None of these instructions raises a
fault of its own. -/
namespace Sys2Proof.Machine

/-- R120: a value clamped to the signed range of `lim` bits. -/
def saturate (lim : Nat) (x : Int) : Int :=
  if x < -(2 : Int) ^ (lim - 1) then -(2 : Int) ^ (lim - 1)
  else if x > (2 : Int) ^ (lim - 1) - 1 then (2 : Int) ^ (lim - 1) - 1
  else x

/-- R120: ADD, SUB and MUL, with their qualifiers. -/
def arith (sat w : Bool) (f : Int → Int → Int) (a b : Dbl) : Dbl :=
  let x := f (opnd w a).toInt (opnd w b).toInt
  result w (if sat then saturate (if w then 32 else 64) x else x)

/-- R120: SHL. -/
def shlVal (w : Bool) (a b : Dbl) : Dbl :=
  let x := opnd w a <<< shiftCount w b
  if w then sext32 x else x

/-- R120: SHR; zeros fill. -/
def shrVal (w : Bool) (a b : Dbl) : Dbl :=
  if w then sext32 (((a.extractLsb' 0 32) >>> shiftCount w b).zeroExtend 64) else a >>> shiftCount w b

/-- R120: SRA; the sign fills. -/
def sraVal (w : Bool) (a b : Dbl) : Dbl :=
  if w then sext32 (((a.extractLsb' 0 32).sshiftRight (shiftCount w b)).zeroExtend 64)
  else a.sshiftRight (shiftCount w b)

/-- R120: MULH. -/
def mulhVal (a b : Dbl) : Dbl := BitVec.ofInt 64 ((a.toInt * b.toInt) / 2 ^ 64)

/-- R120: MULHZ. -/
def mulhzVal (a b : Dbl) : Dbl := BitVec.ofNat 64 (a.toNat * b.toNat / 2 ^ 64)

/-- R120, R121: DIV. -/
def divVal (a b : Dbl) : Dbl := if b = 0 then BitVec.allOnes 64 else BitVec.ofInt 64 (a.toInt.tdiv b.toInt)

/-- R120, R121: DIVZ. -/
def divzVal (a b : Dbl) : Dbl := if b = 0 then BitVec.allOnes 64 else BitVec.ofNat 64 (a.toNat / b.toNat)

/-- R120, R121: REM. -/
def remVal (a b : Dbl) : Dbl := if b = 0 then a else BitVec.ofInt 64 (a.toInt - b.toInt * a.toInt.tdiv b.toInt)

/-- R120, R121: REMZ. -/
def remzVal (a b : Dbl) : Dbl := if b = 0 then a else BitVec.ofNat 64 (a.toNat - b.toNat * (a.toNat / b.toNat))

/-- A comparison as a register value. -/
def bit (p : Bool) : Dbl := if p then 1 else 0

/-- R120: CLZ. -/
def clzVal (a : Dbl) : Dbl :=
  BitVec.ofNat 64 (((List.range 64).takeWhile fun i => !a.getLsbD (63 - i)).length)

/-- R120: POPC. -/
def popcVal (a : Dbl) : Dbl := BitVec.ofNat 64 ((List.range 64).countP fun i => a.getLsbD i)

/-- R120, R122: the result written to g`d`, and the step past the instruction. -/
def State.put (s : State) (d : Reg) (v : Dbl) : Host.Outcome State Fault Refusal := .next ((s.setG d v).retire)

/-- R120: ADD. -/
def execAdd (d a b : Reg) (sat w : Bool) (s : State) : Host.Outcome State Fault Refusal :=
  s.put d (arith sat w (· + ·) (s.g a) (s.g b))

/-- R120: SUB. -/
def execSub (d a b : Reg) (sat w : Bool) (s : State) : Host.Outcome State Fault Refusal :=
  s.put d (arith sat w (· - ·) (s.g a) (s.g b))

/-- R120: AND. -/
def execAnd (d a b : Reg) (s : State) : Host.Outcome State Fault Refusal := s.put d (s.g a &&& s.g b)

/-- R120: OR. -/
def execOr (d a b : Reg) (s : State) : Host.Outcome State Fault Refusal := s.put d (s.g a ||| s.g b)

/-- R120: XOR. -/
def execXor (d a b : Reg) (s : State) : Host.Outcome State Fault Refusal := s.put d (s.g a ^^^ s.g b)

/-- R120: SHL. -/
def execShl (d a b : Reg) (w : Bool) (s : State) : Host.Outcome State Fault Refusal :=
  s.put d (shlVal w (s.g a) (s.g b))

/-- R120: SHR. -/
def execShr (d a b : Reg) (w : Bool) (s : State) : Host.Outcome State Fault Refusal :=
  s.put d (shrVal w (s.g a) (s.g b))

/-- R120: SRA. -/
def execSra (d a b : Reg) (w : Bool) (s : State) : Host.Outcome State Fault Refusal :=
  s.put d (sraVal w (s.g a) (s.g b))

/-- R120: MUL. -/
def execMul (d a b : Reg) (sat w : Bool) (s : State) : Host.Outcome State Fault Refusal :=
  s.put d (arith sat w (· * ·) (s.g a) (s.g b))

/-- R120: MULH. -/
def execMulh (d a b : Reg) (s : State) : Host.Outcome State Fault Refusal := s.put d (mulhVal (s.g a) (s.g b))

/-- R120: MULHZ. -/
def execMulhz (d a b : Reg) (s : State) : Host.Outcome State Fault Refusal := s.put d (mulhzVal (s.g a) (s.g b))

/-- R121: DIV. -/
def execDiv (d a b : Reg) (s : State) : Host.Outcome State Fault Refusal := s.put d (divVal (s.g a) (s.g b))

/-- R121: DIVZ. -/
def execDivz (d a b : Reg) (s : State) : Host.Outcome State Fault Refusal := s.put d (divzVal (s.g a) (s.g b))

/-- R121: REM. -/
def execRem (d a b : Reg) (s : State) : Host.Outcome State Fault Refusal := s.put d (remVal (s.g a) (s.g b))

/-- R121: REMZ. -/
def execRemz (d a b : Reg) (s : State) : Host.Outcome State Fault Refusal := s.put d (remzVal (s.g a) (s.g b))

/-- R120: MIN, signed. -/
def execMin (d a b : Reg) (s : State) : Host.Outcome State Fault Refusal :=
  s.put d (if (s.g a).sle (s.g b) then s.g a else s.g b)

/-- R120: MAX, signed. -/
def execMax (d a b : Reg) (s : State) : Host.Outcome State Fault Refusal :=
  s.put d (if (s.g a).sle (s.g b) then s.g b else s.g a)

/-- R120: MINZ, unsigned. -/
def execMinz (d a b : Reg) (s : State) : Host.Outcome State Fault Refusal :=
  s.put d (if (s.g a).ule (s.g b) then s.g a else s.g b)

/-- R120: MAXZ, unsigned. -/
def execMaxz (d a b : Reg) (s : State) : Host.Outcome State Fault Refusal :=
  s.put d (if (s.g a).ule (s.g b) then s.g b else s.g a)

/-- R120: SLT. -/
def execSlt (d a b : Reg) (s : State) : Host.Outcome State Fault Refusal := s.put d (bit ((s.g a).slt (s.g b)))

/-- R120: SLTZ. -/
def execSltz (d a b : Reg) (s : State) : Host.Outcome State Fault Refusal := s.put d (bit ((s.g a).ult (s.g b)))

/-- R120: SEQ. -/
def execSeq (d a b : Reg) (s : State) : Host.Outcome State Fault Refusal := s.put d (bit (s.g a == s.g b))

/-- R120: SNE. -/
def execSne (d a b : Reg) (s : State) : Host.Outcome State Fault Refusal := s.put d (bit (s.g a != s.g b))

/-- R120: CLZ. -/
def execClz (d a : Reg) (s : State) : Host.Outcome State Fault Refusal := s.put d (clzVal (s.g a))

/-- R120: POPC. -/
def execPopc (d a : Reg) (s : State) : Host.Outcome State Fault Refusal := s.put d (popcVal (s.g a))

/-- R122: ADDI. -/
def execAddi (d a : Reg) (i : BitVec 16) (s : State) : Host.Outcome State Fault Refusal :=
  s.put d (s.g a + imm16 i)

/-- R122: ANDI. -/
def execAndi (d a : Reg) (i : BitVec 16) (s : State) : Host.Outcome State Fault Refusal :=
  s.put d (s.g a &&& immz16 i)

/-- R122: ORI. -/
def execOri (d a : Reg) (i : BitVec 16) (s : State) : Host.Outcome State Fault Refusal :=
  s.put d (s.g a ||| immz16 i)

/-- R122: XORI. -/
def execXori (d a : Reg) (i : BitVec 16) (s : State) : Host.Outcome State Fault Refusal :=
  s.put d (s.g a ^^^ immz16 i)

/-- R122: SHLI. -/
def execShli (d a : Reg) (n : BitVec 6) (s : State) : Host.Outcome State Fault Refusal :=
  s.put d (s.g a <<< n.toNat)

/-- R122: SHRI. -/
def execShri (d a : Reg) (n : BitVec 6) (s : State) : Host.Outcome State Fault Refusal :=
  s.put d (s.g a >>> n.toNat)

/-- R122: SRAI. -/
def execSrai (d a : Reg) (n : BitVec 6) (s : State) : Host.Outcome State Fault Refusal :=
  s.put d ((s.g a).sshiftRight n.toNat)

/-- R122: SLTI. -/
def execSlti (d a : Reg) (i : BitVec 16) (s : State) : Host.Outcome State Fault Refusal :=
  s.put d (bit ((s.g a).slt (imm16 i)))

/-- R122: LUI. -/
def execLui (d : Reg) (i : BitVec 21) (s : State) : Host.Outcome State Fault Refusal :=
  s.put d (i.signExtend 64 <<< 16)

end Sys2Proof.Machine
end

