-- ==== Sys2Proof/Machine/Numeric.lean ====
section
/-! DEFINITION. Number formats and exact arithmetic (R22 to R53): a finite value is a sign, a whole number and
a power of two, and every operation rounds once at its end. -/
namespace Sys2Proof.Machine

/-! ## Helpers of R22 -/

/-- R22: round_half_even of `n / d`. -/
def roundHalfEven (n d : Nat) : Nat :=
  let q := n / d
  let r := 2 * (n % d)
  if r < d then q else if d < r then q + 1 else if q % 2 = 0 then q else q + 1

/-- R22: round_half_away of `x / d`, for `d` above 0. -/
def roundHalfAway (x : Int) (d : Nat) : Int :=
  if 0 ≤ x then ((2 * x.toNat + d) / (2 * d) : Nat) else -(((2 * (-x).toNat + d) / (2 * d) : Nat) : Int)

/-- R22: saturate. -/
def clampInt (x lo hi : Int) : Int := if x < lo then lo else if hi < x then hi else x

/-- `m × 2^k`, rounded to the nearest whole number, ties to even. -/
def scaleRound (m : Nat) (k : Int) : Nat :=
  if 0 ≤ k then m * 2 ^ k.toNat else roundHalfEven m (2 ^ (-k).toNat)

/-! ## Values (R26 to R29) -/

/-- A value of a floating format: NaN, an infinity, or (−1)^neg × m × 2^e with a signed zero. -/
inductive Fv where
  | nan
  | inf (neg : Bool)
  | fin (neg : Bool) (m : Nat) (e : Int)
deriving DecidableEq, Repr

/-- R26, R28: the value of a code with an 8-bit exponent and `p - 1` fraction bits. -/
def decodeFp (p : Nat) (x : Nat) : Fv :=
  let frac := x % 2 ^ (p - 1)
  let ex := x / 2 ^ (p - 1) % 256
  let neg := x / 2 ^ (p + 7) % 2 == 1
  if ex = 255 then (if frac = 0 then .inf neg else .nan)
  else if ex = 0 then .fin neg frac (-126 - ((p : Int) - 1))
  else .fin neg (2 ^ (p - 1) + frac) ((ex : Int) - 127 - ((p : Int) - 1))

/-- R26: round_to a format of precision `p` with an 8-bit exponent: one rounding to nearest, ties to even. -/
def encodeFp (p : Nat) (v : Fv) : Nat :=
  match v with
  | .nan => 255 * 2 ^ (p - 1) + 2 ^ (p - 2)
  | .inf neg => neg.toNat * 2 ^ (p + 7) + 255 * 2 ^ (p - 1)
  | .fin neg m e =>
    let sign := neg.toNat * 2 ^ (p + 7)
    if m = 0 then sign
    else
      let low : Int := -126 - ((p : Int) - 1)
      let q : Int := max ((Nat.log2 m : Int) + e - ((p : Int) - 1)) low
      let r := scaleRound m (e - q)
      let (r, q) := if r = 2 ^ p then (2 ^ (p - 1), q + 1) else (r, q)
      if r < 2 ^ (p - 1) then sign + r
      else
        let ex := (q + ((p : Int) - 1) + 127).toNat
        if 255 ≤ ex then sign + 255 * 2 ^ (p - 1) else sign + ex * 2 ^ (p - 1) + (r - 2 ^ (p - 1))

/-- FP32 and BF16 codes. -/
def f32Val (x : W32) : Fv := decodeFp 24 x.toNat
def f32Of (v : Fv) : W32 := BitVec.ofNat 32 (encodeFp 24 v)
def bf16Val (x : Nat) : Fv := decodeFp 8 x
def bf16Of (v : Fv) : Nat := encodeFp 8 v

/-- A finite value as a whole number at exponent `e`, at or below its own. -/
def alignTo (neg : Bool) (m : Nat) (e0 e : Int) : Int :=
  let n : Int := (m * 2 ^ (e0 - e).toNat : Nat)
  if neg then -n else n

/-- The exact value of a whole number at exponent `e`; an exact zero is +0. -/
def finOf (x : Int) (e : Int) : Fv := .fin (decide (x < 0)) x.natAbs e

/-- R27: the exact sum. -/
def Fv.add : Fv → Fv → Fv
  | .nan, _ => .nan
  | .inf _, .nan => .nan
  | .fin _ _ _, .nan => .nan
  | .inf a, .inf b => if a = b then .inf a else .nan
  | .inf a, .fin _ _ _ => .inf a
  | .fin _ _ _, .inf b => .inf b
  | .fin s m e, .fin t n f =>
    if m = 0 && n = 0 then .fin (s && t) 0 0
    else
      let g := min e f
      finOf (alignTo s m e g + alignTo t n f g) g

/-- R27: the exact product. -/
def Fv.mul : Fv → Fv → Fv
  | .nan, _ => .nan
  | .inf _, .nan => .nan
  | .fin _ _ _, .nan => .nan
  | .inf a, .inf b => .inf (a != b)
  | .inf a, .fin t n _ => if n = 0 then .nan else .inf (a != t)
  | .fin s m _, .inf b => if m = 0 then .nan else .inf (s != b)
  | .fin s m e, .fin t n f => .fin (s != t) (m * n) (e + f)

def Fv.neg : Fv → Fv
  | .nan => .nan
  | .inf s => .inf (!s)
  | .fin s m e => .fin (!s) m e

/-- Whether the first of two values that are not NaN is below the second; `zeros` orders −0 below +0. -/
def Fv.lt (zeros : Bool) : Fv → Fv → Bool
  | .nan, _ => false
  | .inf _, .nan => false
  | .fin _ _ _, .nan => false
  | .inf a, .inf b => a && !b
  | .inf a, .fin _ _ _ => a
  | .fin _ _ _, .inf b => !b
  | .fin s m e, .fin t n f =>
    if m = 0 && n = 0 then zeros && s && !t
    else
      let g := min e f
      decide (alignTo s m e g < alignTo t n f g)

/-- R27: minimum and maximum. -/
def Fv.min (a b : Fv) : Fv :=
  if a = .nan || b = .nan then .nan else if Fv.lt true b a then b else a
def Fv.max (a b : Fv) : Fv :=
  if a = .nan || b = .nan then .nan else if Fv.lt true a b then b else a

/-- R175: the comparisons of FCMP, by condition code. -/
def Fv.cmp (cond : Nat) (a b : Fv) : Bool :=
  let un := a = .nan || b = .nan
  let eq := !un && !Fv.lt false a b && !Fv.lt false b a
  match cond with
  | 0 => eq
  | 1 => !eq
  | 2 => !un && Fv.lt false a b
  | 3 => !un && !Fv.lt false a b
  | 4 => !un && !Fv.lt false b a
  | _ => !un && Fv.lt false b a

/-- R176: the seed S[j]. -/
def frcpSeed (j : Nat) : Nat := roundHalfEven (2 ^ 17 * 512) (512 + 2 * j + 1)

/-- R176: FRCP. -/
def frcp (x : W32) : W32 :=
  match f32Val x with
  | .nan => 0x7FC00000
  | .inf s => f32Of (.fin s 0 0)
  | .fin s m e =>
    if m = 0 then f32Of (.inf s)
    else
      let k := Nat.log2 m
      let m23 := m * 2 ^ (23 - k)
      let ex : Int := e + k
      let y0 := frcpSeed ((m23 - 2 ^ 23) / 2 ^ 15)
      f32Of (.fin s (y0 * (2 ^ 41 - m23 * y0)) (-57 - ex))

/-! ## CQ16 (R30, R31) -/

def cqRe (x : W32) : Int := (x.extractLsb' 0 16).toInt
def cqIm (x : W32) : Int := (x.extractLsb' 16 16).toInt
def cqMk (re im : Int) : W32 := BitVec.ofInt 16 im ++ BitVec.ofInt 16 re
/-- R31: one part, rounded with ties away from zero and saturated. -/
def cqPart (x : Int) : Int := clampInt (roundHalfAway x (2 ^ 15)) (-32768) 32767

/-- R31: CMAC, and CMUL with an accumulator of zero. -/
def cqMac (a b c : W32) : W32 :=
  cqMk (cqPart (cqRe c * 2 ^ 15 + cqRe a * cqRe b - cqIm a * cqIm b))
    (cqPart (cqIm c * 2 ^ 15 + cqRe a * cqIm b + cqIm a * cqRe b))

/-- R31: CCONJ. -/
def cqConj (a : W32) : W32 := cqMk (cqRe a) (clampInt (-cqIm a) (-32768) 32767)

/-! ## binary8 (R32 to R35) -/

/-- R32: the value of an ordinary magnitude code with `p - 1` fraction bits and bias `b`. -/
def b8Ordinary (neg : Bool) (p : Nat) (b : Nat) (c : Nat) : Fv :=
  let t := c % 2 ^ (p - 1)
  let e := c / 2 ^ (p - 1)
  if e = 0 then .fin neg t (1 - (b : Int) - ((p : Int) - 1))
  else .fin neg (2 ^ (p - 1) + t) ((e : Int) - b - ((p : Int) - 1))

/-- R32: the bias. -/
def b8Bias (signed : Bool) (p : Nat) : Nat := if signed then 2 ^ (7 - p) else 2 ^ (8 - p)

/-- R32, R33: the value of a code; reading 0 F, 1 N, 2 I. -/
def b8Val (signed : Bool) (p reading : Nat) (c : Nat) : Fv :=
  if c = 0 then .fin false 0 0
  else if signed then
    if c = 0x80 then (if reading = 0 then .fin false 0 0 else .nan)
    else if c % 128 = 127 && reading = 2 then .inf (decide (128 ≤ c))
    else b8Ordinary (decide (128 ≤ c)) p (b8Bias true p) (c % 128)
  else if c = 0xFF then (if reading = 0 then .fin false 0 0 else .nan)
  else if c = 0xFE && reading = 2 then .inf false
  else b8Ordinary false p (b8Bias false p) c

/-- R33: the largest finite magnitude code. -/
def b8Max (signed : Bool) (reading : Nat) : Nat :=
  if signed then (if reading = 2 then 0x7E else 0x7F) else (if reading = 2 then 0xFD else 0xFE)

/-- R35 step 4: the magnitude code nearest to `m × 2^e`, the exponent range unbounded above; ties go to the
even code. -/
def b8Nearest (signed : Bool) (p : Nat) (m : Nat) (e : Int) : Nat :=
  if m = 0 then 0
  else
    let b : Int := b8Bias signed p
    let low : Int := 1 - b - ((p : Int) - 1)
    let k : Int := (Nat.log2 m : Int) + e
    let q : Int := max (k - ((p : Int) - 1)) low
    if p = 1 then
      let g := min e (k - 1)
      let x := alignTo false m e g
      if k + b < 0 then 0
      else if k + b = 0 then (if x = alignTo false 1 k g then 0 else 1)
      else
        let c := (k + b).toNat
        let mid := alignTo false 3 (k - 1) g
        if x < mid then c else if mid < x then c + 1 else if c % 2 = 0 then c else c + 1
    else
      let r := scaleRound m (e - q)
      let ex : Int := q - low
      (ex.toNat) * 2 ^ (p - 1) + r

/-- R35: encoding a value. -/
def b8Of (signed : Bool) (p reading : Nat) (v : Fv) : Nat :=
  let top := b8Max signed reading
  let past (neg : Bool) : Nat :=
    (if signed && neg then 128 else 0) + (if reading = 2 then (if signed then 0x7F else 0xFE) else top)
  match v with
  | .nan => if reading = 0 then 0 else if signed then 0x80 else 0xFF
  | .inf neg => if !signed && neg then 0 else past neg
  | .fin neg m e =>
    if !signed && neg then 0
    else
      let c := b8Nearest signed p m e
      if c = 0 then 0 else if top < c then past neg else (if signed && neg then 128 else 0) + c

/-! ## LN8 and LN16 (R36 to R44) -/

/-- R40: T8, entries 0 to 15. -/
def t8 : List Nat :=
  [
   8388608, 8760003, 9147842, 9552851, 9975792, 10417458, 10878679, 11360319, 11863283,
   12388516, 12937002, 13509772, 14107901, 14732511, 15384775, 16065917]

/-- R41: T16, entries 0 to 63. -/
def t160 : List Nat :=
  [
   8388608, 8411352, 8434157, 8457025, 8479954, 8502945, 8525999, 8549116, 8572295,
   8595536, 8618841, 8642209, 8665641, 8689136, 8712694, 8736317, 8760003, 8783754,
   8807569, 8831449, 8855394, 8879403, 8903477, 8927617, 8951823, 8976093, 9000430,
   9024833, 9049301, 9073837, 9098438, 9123107, 9147842, 9172644, 9197514, 9222451,
   9247455, 9272528, 9297668, 9322877, 9348154, 9373499, 9398913, 9424396, 9449948,
   9475570, 9501261, 9527021, 9552851, 9578752, 9604722, 9630764, 9656875, 9683058,
   9709311, 9735636, 9762032, 9788499, 9815039, 9841650, 9868333, 9895089, 9921917,
   9948818]

/-- R41: T16, entries 64 to 127. -/
def t161 : List Nat :=
  [
   9975792, 10002839, 10029960, 10057154, 10084422, 10111763, 10139179, 10166669, 10194234,
   10221873, 10249587, 10277377, 10305242, 10333182, 10361198, 10389290, 10417458, 10445703,
   10474024, 10502422, 10530897, 10559449, 10588079, 10616786, 10645571, 10674434, 10703375,
   10732395, 10761494, 10790671, 10819928, 10849263, 10878679, 10908174, 10937749, 10967404,
   10997140, 11026956, 11056853, 11086831, 11116891, 11147032, 11177254, 11207559, 11237946,
   11268415, 11298967, 11329601, 11360319, 11391120, 11422004, 11452973, 11484025, 11515161,
   11546382, 11577687, 11609078, 11640553, 11672114, 11703760, 11735492, 11767310, 11799215,
   11831206]

/-- R41: T16, entries 128 to 191. -/
def t162 : List Nat :=
  [
   11863283, 11895448, 11927700, 11960039, 11992466, 12024981, 12057584, 12090275, 12123055,
   12155924, 12188882, 12221930, 12255067, 12288294, 12321610, 12355018, 12388516, 12422104,
   12455784, 12489555, 12523418, 12557372, 12591419, 12625557, 12659789, 12694113, 12728530,
   12763041, 12797645, 12832343, 12867135, 12902021, 12937002, 12972078, 13007249, 13042515,
   13077877, 13113335, 13148888, 13184539, 13220286, 13256129, 13292070, 13328109, 13364245,
   13400479, 13436812, 13473242, 13509772, 13546401, 13583129, 13619956, 13656884, 13693911,
   13731039, 13768268, 13805598, 13843028, 13880561, 13918195, 13955931, 13993769, 14031710,
   14069754]

/-- R41: T16, entries 192 to 255. -/
def t163 : List Nat :=
  [
   14107901, 14146151, 14184505, 14222963, 14261526, 14300193, 14338964, 14377841, 14416824,
   14455912, 14495106, 14534406, 14573813, 14613326, 14652947, 14692675, 14732511, 14772455,
   14812507, 14852668, 14892937, 14933316, 14973805, 15014403, 15055111, 15095929, 15136859,
   15177899, 15219050, 15260313, 15301688, 15343175, 15384775, 15426487, 15468313, 15510252,
   15552304, 15594471, 15636752, 15679147, 15721658, 15764283, 15807025, 15849882, 15892855,
   15935945, 15979152, 16022476, 16065917, 16109476, 16153153, 16196949, 16240863, 16284897,
   16329050, 16373322, 16417715, 16462228, 16506861, 16551616, 16596492, 16641490, 16686609,
   16731851]

/-- R41: T16. -/
def t16 : List Nat := t160 ++ t161 ++ t162 ++ t163

/-- R42: M, entries 0 to 63. -/
def midTab0 : List Nat :=
  [
   8399972, 8422747, 8445583, 8468482, 8491442, 8514465, 8537550, 8560697, 8583908,
   8607181, 8630517, 8653917, 8677380, 8700907, 8724498, 8748152, 8771871, 8795654,
   8819501, 8843413, 8867390, 8891432, 8915539, 8939712, 8963950, 8988253, 9012623,
   9037059, 9061561, 9086129, 9110764, 9135466, 9160235, 9185071, 9209974, 9234945,
   9259983, 9285089, 9310264, 9335507, 9360818, 9386197, 9411646, 9437164, 9462750,
   9488406, 9514132, 9539928, 9565793, 9591728, 9617734, 9643811, 9669958, 9696175,
   9722464, 9748825, 9775256, 9801760, 9828335, 9854982, 9881702, 9908494, 9935359,
   9962296]

/-- R42: M, entries 64 to 127. -/
def midTab1 : List Nat :=
  [
   9989307, 10016390, 10043548, 10070778, 10098083, 10125462, 10152915, 10180442, 10208044,
   10235721, 10263473, 10291300, 10319202, 10347181, 10375235, 10403365, 10431571, 10459854,
   10488214, 10516650, 10545163, 10573754, 10602423, 10631169, 10659993, 10688895, 10717875,
   10746935, 10776072, 10805289, 10834585, 10863961, 10893416, 10922951, 10952566, 10982262,
   11012038, 11041894, 11071832, 11101851, 11131951, 11162133, 11192396, 11222742, 11253170,
   11283680, 11314274, 11344950, 11375709, 11406552, 11437478, 11468488, 11499582, 11530761,
   11562024, 11593372, 11624805, 11656323, 11687926, 11719615, 11751390, 11783252, 11815199,
   11847234]

/-- R42: M, entries 128 to 191. -/
def midTab2 : List Nat :=
  [
   11879355, 11911563, 11943858, 11976241, 12008712, 12041271, 12073918, 12106654, 12139479,
   12172392, 12205395, 12238487, 12271669, 12304941, 12338303, 12371755, 12405299, 12438933,
   12472658, 12506475, 12540383, 12574384, 12608476, 12642662, 12676939, 12711310, 12745774,
   12780331, 12814982, 12849727, 12884566, 12919500, 12954528, 12989651, 13024870, 13060184,
   13095594, 13131099, 13166701, 13202400, 13238195, 13274088, 13310077, 13346165, 13382350,
   13418633, 13455015, 13491495, 13528074, 13564752, 13601530, 13638408, 13675385, 13712463,
   13749641, 13786920, 13824300, 13861782, 13899365, 13937050, 13974837, 14012727, 14050719,
   14088814]

/-- R42: M, entries 192 to 255. -/
def midTab3 : List Nat :=
  [
   14127013, 14165315, 14203721, 14242232, 14280846, 14319565, 14358390, 14397319, 14436354,
   14475495, 14514742, 14554096, 14593556, 14633123, 14672798, 14712579, 14752469, 14792467,
   14832574, 14872789, 14913113, 14953547, 14994090, 15034743, 15075506, 15116380, 15157365,
   15198461, 15239668, 15280987, 15322418, 15363961, 15405617, 15447386, 15489268, 15531264,
   15573373, 15615597, 15657935, 15700388, 15742956, 15785640, 15828439, 15871354, 15914386,
   15957534, 16000799, 16044182, 16087682, 16131300, 16175036, 16218891, 16262865, 16306958,
   16351171, 16395504, 16439956, 16484530, 16529224, 16574039, 16618976, 16664034, 16709215,
   16754518]

/-- R42: M. -/
def midTab : List Nat := midTab0 ++ midTab1 ++ midTab2 ++ midTab3

/-- R38: the step, the midpoint and the table entry of a fraction. -/
def lnStep (wide : Bool) : Nat := if wide then 256 else 16
def lnMid (wide : Bool) : Nat := if wide then 16384 else 64
def lnTab (wide : Bool) (f : Nat) : Nat := ((if wide then t16 else t8)[f]?).getD 0
/-- R42: the boundary between fractions j and j + 1. -/
def lnBound (wide : Bool) (j : Nat) : Nat := if wide then midTab[j]?.getD 0 else t16[16 * j + 8]?.getD 0

/-- R36, R37: the sign and the log field of a code. -/
def lnNeg (wide : Bool) (c : Nat) : Bool := decide ((if wide then 2 ^ 15 else 2 ^ 7) ≤ c)
def lnField (wide : Bool) (c : Nat) : Nat := c % (if wide then 2 ^ 15 else 2 ^ 7)
def lnNan (wide : Bool) (c : Nat) : Bool := lnNeg wide c && lnField wide c == 0

/-- R38, R44: the exact value of a code under a scale. -/
def lnVal (wide : Bool) (c : Nat) (sigma : Int) : Fv :=
  let e := lnField wide c
  if e = 0 then (if lnNeg wide c then .nan else .fin false 0 0)
  else
    let w : Int := lnStep wide
    let l : Int := (e : Int) - lnMid wide + w * sigma
    .fin (lnNeg wide c) (lnTab wide (l % w).toNat) (l / w - 23)

/-- R43: the fraction of a significand: the number of boundaries at or below it. -/
def lnFrac (wide : Bool) (m : Nat) : Nat :=
  (List.range (lnStep wide)).foldl (fun f j =>
    let b := lnBound wide j
    if b < m || (m = b && j % 2 = 1) then j + 1 else f) 0

/-- R43: LENC of an exact value: the code, and whether it saturated. -/
def lenc (wide : Bool) (v : Fv) : Nat × Bool :=
  let top := if wide then 2 ^ 15 else 2 ^ 7
  match v with
  | .nan => (top, false)
  | .inf neg => (neg.toNat * top + (top - 1), true)
  | .fin neg m e =>
    if m = 0 then (0, false)
    else
      let k : Int := (Nat.log2 m : Int) + e
      let r := scaleRound m (e + 23 - k)
      let (r, k) := if r = 2 ^ 24 then (2 ^ 23, k + 1) else (r, k)
      let f := lnFrac wide r
      let w : Int := lnStep wide
      let x : Int := lnMid wide + w * k + f
      let sign := neg.toNat * top
      if x < 1 then (sign + 1, true)
      else if (top : Int) - 1 < x then (sign + (top - 1), true)
      else (sign + x.toNat, false)

/-- A scale as a signed number (R39). -/
def sigmaVal (b : Byte) : Int := b.toInt

/-! ## Elements of a lane (R23) -/

/-- Element `i` of width `w` of a lane. -/
def elem (x : W32) (w i : Nat) : Nat := x.toNat / 2 ^ (w * i) % 2 ^ w

/-- A lane from its elements of width `w`, element 0 first. -/
def lane (w : Nat) (es : List Nat) : W32 :=
  BitVec.ofNat 32 (es.foldr (fun e acc => e % 2 ^ w + 2 ^ w * acc) 0)

/-- A `w`-bit pattern read as a signed or unsigned number. -/
def readInt (signed : Bool) (w x : Nat) : Int :=
  if signed && decide (2 ^ (w - 1) ≤ x % 2 ^ w) then ((x % 2 ^ w : Nat) : Int) - 2 ^ w else ((x % 2 ^ w : Nat) : Int)

/-- A number wrapped to `w` bits (R25). -/
def wrapInt (w : Nat) (x : Int) : Nat := (x % (2 ^ w : Nat)).toNat

/-- R25: the range of a type. -/
def intMin (signed : Bool) (w : Nat) : Int := if signed then -(2 ^ (w - 1) : Nat) else 0
def intMax (signed : Bool) (w : Nat) : Int := if signed then (2 ^ (w - 1) : Nat) - 1 else (2 ^ w : Nat) - 1

/-- R25: a result wrapped, or saturated under .sat. -/
def intRes (sat signed : Bool) (w : Nat) (x : Int) : Nat :=
  wrapInt w (if sat then clampInt x (intMin signed w) (intMax signed w) else x)

/-- R45: FP32 to an integer type. -/
def intOfFv (signed : Bool) (w : Nat) (v : Fv) : Nat :=
  match v with
  | .nan => 0
  | .inf neg => wrapInt w (if neg then intMin signed w else intMax signed w)
  | .fin neg m e =>
    let n : Int := scaleRound m e
    wrapInt w (clampInt (if neg then -n else n) (intMin signed w) (intMax signed w))

/-- R45: FP32 to a CQ16 part. -/
def cqOfFv (v : Fv) : Int :=
  match v with
  | .nan => 0
  | .inf neg => if neg then -32768 else 32767
  | .fin neg m e =>
    let x : Int := if neg then -(m : Int) else m
    let k := e + 15
    clampInt (if 0 ≤ k then x * 2 ^ k.toNat else roundHalfAway x (2 ^ (-k).toNat)) (-32768) 32767

/-! ## Element formats (R85) -/

/-- R85: the width of an element of a format code; 0 for a reserved code. -/
def dtWidth (dt : Nat) : Nat :=
  match dt with
  | 0 | 1 | 6 | 8 => 32
  | 2 | 3 | 7 | 10 => 16
  | 4 | 5 | 9 | 11 | 12 => 8
  | _ => 0

/-- R85: whether the code is an integer format, and whether it is signed. -/
def dtInt (dt : Nat) : Bool := dt < 6
def dtSigned (dt : Nat) : Bool := dt % 2 == 0

/-- A format with the precision and reading of binary8. -/
structure Format where
  dt : Nat
  p : Nat
  reading : Nat
deriving DecidableEq, Repr

/-- R45: the number of values a lane of the format holds. -/
def Format.perLane (f : Format) : Nat := if f.dt = 8 then 2 else 32 / dtWidth f.dt

/-- The exact value of element `i` of a lane (R45). -/
def Format.value (f : Format) (x : W32) (i : Nat) : Fv :=
  match f.dt with
  | 6 => f32Val x
  | 7 => bf16Val (elem x 16 i)
  | 8 => finOf (if i = 0 then cqRe x else cqIm x) (-15)
  | 9 => lnVal false (elem x 8 i) 0
  | 10 => lnVal true (elem x 16 i) 0
  | 11 => b8Val true f.p f.reading (elem x 8 i)
  | 12 => b8Val false f.p f.reading (elem x 8 i)
  | _ => finOf (readInt (dtSigned f.dt) (dtWidth f.dt) (elem x (dtWidth f.dt) i)) 0

/-- R45: a value that has been read as FP32 or directly, encoded into the format. -/
def Format.encode (f : Format) (v : Fv) : Nat :=
  match f.dt with
  | 6 => encodeFp 24 v
  | 7 => bf16Of v
  | 8 => wrapInt 16 (cqOfFv v)
  | 9 => (lenc false v).1
  | 10 => (lenc true v).1
  | 11 => b8Of true f.p f.reading v
  | 12 => b8Of false f.p f.reading v
  | _ => intOfFv (dtSigned f.dt) (dtWidth f.dt) v

/-- R45: the value rounded to FP32 on its way. -/
def viaF32 (v : Fv) : Fv := f32Val (f32Of v)

/-- R45: whether a conversion has one listed step and so does not pass through FP32: integer to BF16, and every
step from or to FP32. -/
def direct (src dst : Format) : Bool := dtInt src.dt && dst.dt == 7

/-- R45: one element converted: bits copied between equal formats, and otherwise by the listed steps. -/
def convert (src dst : Format) (x : W32) (i : Nat) : Nat :=
  if src = dst then
    let raw := if src.dt = 8 then elem x 16 i else elem x (dtWidth src.dt) i
    if (src.dt = 6 || src.dt = 7) && src.value x i = .nan then dst.encode .nan else raw
  else if direct src dst then dst.encode (src.value x i)
  else dst.encode (viaF32 (src.value x i))

/-! ## Sums (R50) -/

/-- One level of the tree. -/
def treeLevel {α : Type} (f : α → α → α) : List α → List α
  | a :: b :: l => f a b :: treeLevel f l
  | l => l

/-- R50: tree_sum; six levels reduce up to 64 values. -/
def treeSum {α : Type} (f : α → α → α) : Nat → List α → List α
  | 0, l => l
  | n + 1, l => treeSum f n (treeLevel f l)

/-- R50, R52, R181, R229: the combination of two elements of a format: 0 add, 1 maximum, 2 minimum. -/
def combine (op dt : Nat) (a b : Nat) : Nat :=
  if dt = 6 || dt = 7 then
    let p := if dt = 6 then 24 else 8
    let x := decodeFp p a
    let y := decodeFp p b
    encodeFp p (match op with
      | 0 => x.add y
      | 1 => x.max y
      | _ => x.min y)
  else
    let w := dtWidth dt
    let x := readInt (dtSigned dt) w a
    let y := readInt (dtSigned dt) w b
    wrapInt w (match op with
      | 0 => x + y
      | 1 => if x ≤ y then y else x
      | _ => if x ≤ y then x else y)

/-- R181: the identity of a combination. -/
def identityOf (op dt : Nat) : Nat :=
  if dt = 6 || dt = 7 then
    let p := if dt = 6 then 24 else 8
    match op with
    | 0 => encodeFp p (.fin true 0 0)
    | 1 => encodeFp p (.inf true)
    | _ => encodeFp p (.inf false)
  else match op with
    | 0 => 0
    | 1 => wrapInt (dtWidth dt) (intMin (dtSigned dt) (dtWidth dt))
    | _ => wrapInt (dtWidth dt) (intMax (dtSigned dt) (dtWidth dt))

/-- R50: the values of one format combined by the tree. -/
def treeOf (op dt : Nat) (l : List Nat) : Nat := ((treeSum (combine op dt) 7 l).head?).getD 0

/-! ## Matrix products (R46, R48, R49) -/

/-- R46: the effect of one product on a column: acc, col_nan, and the flags ASAT and AUND. -/
structure ColSt where
  acc : Int
  nan : Bool
  asat : Bool
  aund : Bool
deriving DecidableEq, Repr

/-- R46: apply_product. -/
def applyProduct (wide : Bool) (a : Nat) (sa : Int) (b : Nat) (sb : Int) (c : ColSt) : ColSt :=
  if lnNan wide a || lnNan wide b then { c with nan := true }
  else if lnField wide a = 0 || lnField wide b = 0 then c
  else
    let w : Int := lnStep wide
    let l : Int := ((lnField wide a : Int) - lnMid wide + w * sa) + ((lnField wide b : Int) - lnMid wide + w * sb)
    let k := l / w + 25
    let t := lnTab wide (l % w).toNat
    let mag := if 0 ≤ k then t * 2 ^ k.toNat else t / 2 ^ (-k).toNat
    if mag = 0 then { c with aund := true }
    else
      let p : Int := if lnNeg wide a != lnNeg wide b then -(mag : Int) else mag
      let sum := c.acc + p
      let r := clampInt sum (-(2 ^ 95)) (2 ^ 95 - 1)
      { c with acc := r, asat := c.asat || r != sum }

/-- R49: a column drained: 0 BF16, 1 FP32, 2 LN16; with whether LENC saturated. -/
def drainCol (df : Nat) (acc : Int) (nan : Bool) : Nat × Bool :=
  let v : Fv := if nan then .nan else finOf acc (-48)
  match df with
  | 0 => (bf16Of v, false)
  | 1 => (encodeFp 24 v, false)
  | _ => lenc true v

end Sys2Proof.Machine
end

