-- ==== Sys2Proof/Machine/Stages.lean ====
section
/-! DEFINITION. Stage words, and the evaluation of one pipeline firing (R82 to R88, R164 to R192). -/
namespace Sys2Proof.Machine

/-! ## Fields of a stage word (R82) -/

def stOpc (w : Dbl) : Nat := bits w 56 8
def stDt (w : Dbl) : Nat := bits w 52 4
def stA (w : Dbl) : Nat := bits w 48 4
def stB (w : Dbl) : Nat := bits w 44 4
def stC (w : Dbl) : Nat := bits w 40 4
def stD (w : Dbl) : Nat := bits w 36 4
def stPI (w : Dbl) : Bool := w.getLsbD 35
def stPS (w : Dbl) : Nat := bits w 32 3
def stImm (w : Dbl) : Nat := bits w 0 32

/-- A field of imm32. -/
def immF (w : Dbl) (lo len : Nat) : Nat := bits w lo len

/-- Which source fields an operation uses (R171 to R192), for one that R86 lists. -/
def usesB (w : Dbl) : Bool :=
  match stOpc w with
  | 0x10 | 0x11 | 0x12 | 0x13 | 0x14 | 0x15 | 0x18 | 0x19 | 0x1A | 0x1C | 0x1D | 0x1E | 0x1F | 0x20
  | 0x30 | 0x31 | 0x32 | 0x33 | 0x34 | 0x35 | 0x38 | 0x50 | 0x51 | 0x52 | 0x70 | 0x71 | 0x88 | 0x90
  | 0x93 | 0x94 | 0x95 | 0xA8 => true
  | 0x60 => stDt w == 8 && (immF w 0 4 == 0 || immF w 0 4 == 1 || immF w 0 4 == 6)
  | _ => false
def usesC (w : Dbl) : Bool :=
  match stOpc w with
  | 0x13 | 0x20 | 0x33 | 0x52 | 0x71 | 0xA8 | 0xA9 => true
  | _ => false

/-- The source codes that a word names. -/
def sources (w : Dbl) : List Nat :=
  if w = 0 then [] else stA w :: ((if usesB w then [stB w] else []) ++ (if usesC w then [stC w] else []))

/-- R166: the inputs that a pipeline's words name. -/
def pipeInputs (ws : List Dbl) : List Nat :=
  (List.range 4).filter fun i => ws.any fun w => (sources w).contains i

/-- R166, R183, R185: the outputs that one word names; for ROUTE its candidates. [log 37 DEDUCED] -/
def wordOuts (w : Dbl) : List Nat :=
  if w = 0 then []
  else if stOpc w = 0x93 then (List.range 4).filter fun k => (immF w 0 4).testBit k
  else
    (if 8 ≤ stD w && stD w < 12 then [stD w - 8] else []) ++ (if stOpc w = 0x91 then [immF w 16 2] else [])

/-- R166, R185: the named destinations of a pipeline. -/
def pipeOutputs (ws : List Dbl) : List Nat :=
  (List.range 4).filter fun k => ws.any fun w => (wordOuts w).contains k

/-- The token operation of a kind that a scene holds, if any. -/
def findOp (ws : List Dbl) (opc : Nat) : Option Dbl := ws.find? fun w => w != 0 && stOpc w == opc

/-- R87: the multiplier class. -/
def multiplier (w : Dbl) : Bool := w != 0 && [0x12, 0x13, 0x32, 0x33, 0x39, 0x51, 0x52, 0x70, 0x71].contains (stOpc w)

/-- R188: the inputs that a scene's words make scale-aware. -/
def scaleInput (ws : List Dbl) (i : Nat) : Bool :=
  ws.any fun w => w != 0 && stA w == i && ((stOpc w == 0x62 && w.getLsbD 0) || stOpc w == 0xA1)

/-! ## Lanes -/

/-- Sixteen equal lanes. -/
def Lanes.zero : Lanes := Vector.replicate 16 0
/-- Lane `i`, and zero beyond lane 15. -/
def laneAt (v : Lanes) (i : Nat) : W32 := (v[i]?).getD 0
/-- The lanes given by a function of the lane number. -/
def lanesOf (f : Nat → W32) : Lanes := Vector.ofFn fun i : Fin 16 => f i.val
/-- Lanes outside a mask made zero (R56). -/
def maskLanes (m : BitVec 16) (v : Lanes) : Lanes := lanesOf fun i => if m.getLsbD i then laneAt v i else 0

/-- R188: the scale that applies to element position `pos`. -/
def Latch.at (l : Latch) (wide : Bool) (pos : Nat) : Int :=
  if wide || pos < 32 then sigmaVal l.lo else sigmaVal l.hi

/-- R188: a scale token at a scale-aware input. -/
def Latch.take (l : Latch) (b : Byte) : Latch :=
  if l.second then { l with hi := b, second := false } else { lo := b, hi := b, second := true }

/-- R188: a data token between scale tokens. -/
def Latch.data (l : Latch) : Latch := { l with second := false }

/-! ## Operations on one lane -/

/-- R172: an operation on corresponding elements. -/
def perElem (w : Nat) (f : Nat → Nat → Nat → Nat) (a b c : W32) : W32 :=
  lane w ((List.range (32 / w)).map fun i => f (elem a w i) (elem b w i) (elem c w i))

/-- R88: an integer condition code. -/
def intCond (cond : Nat) (x y : Int) : Bool :=
  match cond with
  | 0 => x == y
  | 1 => x != y
  | 2 => decide (x < y)
  | 3 => decide (y ≤ x)
  | 4 => decide (x ≤ y)
  | _ => decide (y < x)

/-- R172, R173: the integer operations. -/
def intOp (w : Dbl) (a b c : W32) : W32 :=
  let dt := stDt w
  let n := dtWidth dt
  let sg := dtSigned dt
  let sat := w.getLsbD 0
  let rd := readInt sg n
  let res := intRes sat sg n
  match stOpc w with
  | 0x10 => perElem n (fun x y _ => res (rd x + rd y)) a b c
  | 0x11 => perElem n (fun x y _ => res (rd x - rd y)) a b c
  | 0x12 => perElem n (fun x y _ => res (rd x * rd y)) a b c
  | 0x13 =>
    let sum := (List.range (32 / n)).foldl (fun t i => t + rd (elem a n i) * rd (elem b n i)) (readInt sg 32 c.toNat)
    BitVec.ofNat 32 (intRes sat sg 32 sum)
  | 0x14 => perElem n (fun x y _ => if rd x ≤ rd y then x else y) a b c
  | 0x15 => perElem n (fun x y _ => if rd x ≤ rd y then y else x) a b c
  | 0x16 => perElem n (fun x _ _ => res (if rd x < 0 then -rd x else rd x)) a b c
  | 0x17 => perElem n (fun x _ _ => res (-rd x)) a b c
  | 0x18 => a &&& b
  | 0x19 => a ||| b
  | 0x1A => a ^^^ b
  | 0x1B => ~~~a
  | 0x1C => perElem n (fun x y _ => x * 2 ^ (y % n)) a b c
  | 0x1D => perElem n (fun x y _ => x / 2 ^ (y % n)) a b c
  | 0x1E => perElem n (fun x y _ => wrapInt n (readInt true n x / 2 ^ (y % n))) a b c
  | 0x1F => perElem n (fun x y _ => if intCond (immF w 0 3) (rd x) (rd y) then 2 ^ n - 1 else 0) a b c
  | _ => perElem n (fun x y z => if x ≠ 0 then y else z) a b c

/-- R27: the canonical NaN for an operation that only changes the sign. -/
def signOp (x : W32) (f : W32 → W32) : W32 := if f32Val x = .nan then 0x7FC00000 else f x

/-- R174, R175: the FP32 and packed BF16 operations. [log 141 DEDUCED] -/
def fpOp (w : Dbl) (a b c : W32) : W32 :=
  let va := f32Val a
  let vb := f32Val b
  let half (f : Fv → Fv → Fv → Fv) : W32 :=
    perElem 16 (fun x y z => bf16Of (f (bf16Val x) (bf16Val y) (bf16Val z))) a b c
  match stOpc w with
  | 0x30 => f32Of (va.add vb)
  | 0x31 => f32Of (va.add vb.neg)
  | 0x32 => f32Of (va.mul vb)
  | 0x33 => f32Of ((va.mul vb).add (f32Val c))
  | 0x34 => f32Of (va.min vb)
  | 0x35 => f32Of (va.max vb)
  | 0x36 => signOp a (· &&& 0x7FFFFFFF)
  | 0x37 => signOp a (· ^^^ 0x80000000)
  | 0x38 => if Fv.cmp (immF w 0 3) va vb then 0xFFFFFFFF else 0
  | 0x39 => frcp a
  | 0x50 => half fun x y _ => x.add y
  | 0x51 => half fun x y _ => x.mul y
  | _ => half fun x y z => (x.mul y).add z

/-- R88, R177: CVT. -/
def cvtOp (w : Dbl) (a b : W32) : W32 :=
  let src : Format := { dt := immF w 0 4, p := immF w 4 3, reading := immF w 12 2 }
  let dst : Format := { dt := stDt w, p := immF w 8 3, reading := immF w 12 2 }
  let src := { src with reading := if src.dt = 11 || src.dt = 12 then src.reading else 0 }
  let dst := { dst with reading := if dst.dt = 11 || dst.dt = 12 then dst.reading else 0 }
  let n := Nat.min src.perLane dst.perLane
  if dst.dt = 8 then
    if src.dt = 0 || src.dt = 1 || src.dt = 6 then lane 16 [convert src dst a 0, convert src dst b 0]
    else lane 16 ((List.range n).map (convert src dst a))
  else lane (dtWidth dst.dt) ((List.range n).map (convert src dst a))

/-! ## Operations that read other lanes -/

/-- R181: the reductions. -/
def reduceOp (w : Dbl) (a : Lanes) (contrib : Nat → Bool) : Lanes :=
  let dt := stDt w
  let n := dtWidth dt
  let op := stOpc w - 0x80
  let size := 16 / 2 ^ immF w 0 2
  lanesOf fun i =>
    let g := i / size * size
    lane n ((List.range (32 / n)).map fun e =>
      treeOf op dt ((List.range size).map fun k =>
        if contrib (g + k) then elem (laneAt a (g + k)) n e else identityOf op dt))

/-- R182: the permutes. -/
def permOp (w : Dbl) (a b : Lanes) : Lanes :=
  let m := immF w 4 4
  match stOpc w with
  | 0x88 => lanesOf fun i =>
      let x := (laneAt b i).toNat
      if x.testBit 4 then 0 else laneAt a (x % 16)
  | 0x89 => lanesOf fun i => match immF w 0 2 with
      | 0 => laneAt a ((i + m) % 16)
      | 1 => if i + m < 16 then laneAt a (i + m) else 0
      | 2 => if m ≤ i then laneAt a (i - m) else 0
      | _ => laneAt a (i ^^^ m)
  | _ => lanesOf fun _ => laneAt a (immF w 0 4)

/-- R191: the kept positions of a block mask. -/
def keptPositions (m : W32) (n : Nat) : List Nat := ((List.range 32).filter fun i => m.getLsbD i).take n

/-- Element `i` of a token of `w`-bit elements. -/
def tokElem (v : Lanes) (w i : Nat) : Nat := elem (laneAt v (i / (32 / w))) w (i % (32 / w))

/-- A token from a function of the element number. -/
def tokOf (w : Nat) (f : Nat → Nat) : Lanes :=
  lanesOf fun l => lane w ((List.range (32 / w)).map fun e => f (l * (32 / w) + e))

/-- R192: SPK. -/
def spkOp (w : Dbl) (a b c : Lanes) : Lanes :=
  let n := dtWidth (stDt w)
  let keep := immF w 0 6
  let per := if n = 8 then 2 else 1
  let nb := Nat.min (2 * per) (32 * per / keep)
  tokOf n fun i =>
    let blk := i / keep
    if blk < nb then
      match (keptPositions (laneAt c blk) keep)[i % keep]? with
      | some k => if blk < per then tokElem a n (32 * blk + k) else tokElem b n (32 * (blk - per) + k)
      | none => 0
    else 0

/-- R192: SPX. -/
def spxOp (w : Dbl) (a c : Lanes) : Lanes :=
  let n := dtWidth (stDt w)
  let keep := immF w 0 6
  let per := if n = 8 then 2 else 1
  let nb := Nat.min (2 * per) (32 * per / keep)
  tokOf n fun i =>
    let blk := per * (if w.getLsbD 6 then 1 else 0) + i / 32
    match (keptPositions (laneAt c blk) keep).idxOf? (i % 32) with
    | some t => if blk < nb then tokElem a n (keep * blk + t) else 0
    | none => 0

/-! ## One firing (R168) -/

/-- What a firing reads: the lanes at its named inputs, its lane set, its constants, the firing counter and
the latches of its scene. -/
structure PipeIn where
  ins : List Lanes
  v : BitVec 16
  consts : List W32
  f : Nat
  latches : List Latch
deriving DecidableEq, Repr

/-- What a firing leaves: pv, the lane-local registers, the outputs being built, the lanes that FILTER keeps of
each output, and the encodings that saturated. -/
structure PipeOut where
  p : Lanes
  l : List Lanes
  o : List Lanes
  keep : List (BitVec 16)
  sats : Nat
deriving DecidableEq, Repr

/-- R168: the value of a source for lane `i` in stage `k`; zero outside the lane set (R167). -/
def readSrc (e : PipeIn) (st : PipeOut) (code k i : Nat) : W32 :=
  if !e.v.getLsbD i then 0
  else if code < 4 then laneAt ((e.ins[code]?).getD Lanes.zero) i
  else if code < 8 then laneAt ((st.l[code - 4]?).getD Lanes.zero) i
  else if code < 15 then (e.consts[code - 8]?).getD 0
  else if k = 0 then (e.consts[7]?).getD 0
  else laneAt st.p i

/-- R84, R168: whether the predicate of a word selects lane `i`. -/
def selects (e : PipeIn) (st : PipeOut) (w : Dbl) (i : Nat) : Bool :=
  let hit := stPS w == 0
    || (stPS w ≤ 4 && laneAt ((st.l[stPS w - 1]?).getD Lanes.zero) i != 0)
    || (stPS w == 5 && laneAt st.p i != 0)
  e.v.getLsbD i && (hit != stPI w)

/-- R179, R190: the latch of the input that source A of a word names. -/
def latchOf (e : PipeIn) (w : Dbl) : Latch := (e.latches[stA w]?).getD Latch.zero

/-- R178: LENC of one lane, and whether it saturated. -/
def lencLane (w : Dbl) (a : W32) : Nat × Bool := lenc (stDt w == 10) (f32Val a)

/-- R168: the results of a word in every lane. -/
def stageOp (e : PipeIn) (st : PipeOut) (w : Dbl) (k : Nat) : Lanes :=
  let a := lanesOf (readSrc e st (stA w) k)
  let b := lanesOf (readSrc e st (stB w) k)
  let c := lanesOf (readSrc e st (stC w) k)
  let each (f : W32 → W32 → W32 → W32) : Lanes := lanesOf fun i => f (laneAt a i) (laneAt b i) (laneAt c i)
  let opc := stOpc w
  if opc < 0x10 then a
  else if opc < 0x30 then each (intOp w)
  else if opc < 0x60 then each (fpOp w)
  else match opc with
  | 0x60 => each fun x y _ => cvtOp w x y
  | 0x61 => each fun x _ _ => BitVec.ofNat 32 (lencLane w x).1
  | 0x62 =>
    let wide := stDt w == 10
    let n := if wide then 2 else 4
    let el := immF w 1 2
    lanesOf fun i =>
      let code := elem (laneAt a i) (32 / n) (el % n)
      f32Of (lnVal wide code (if w.getLsbD 0 then (latchOf e w).at wide (n * i + el) else 0))
  | 0x70 => each fun x y _ => cqMac x y 0
  | 0x71 => each cqMac
  | 0x72 => each fun x _ _ => cqConj x
  | 0x80 => reduceOp w a (selects e st w)
  | 0x81 => reduceOp w a (selects e st w)
  | 0x82 => reduceOp w a (selects e st w)
  | 0x88 => permOp w a b
  | 0x89 => permOp w a b
  | 0x8A => permOp w a b
  | 0x90 => lanesOf fun i => laneAt a i ||| laneAt b i
  | 0x94 => lanesOf fun i => laneAt a i + BitVec.ofNat 32 (16 * e.f + i) * laneAt b i
  | 0x95 => each fun x y _ => BitVec.ofNat 32 (Nat.min (x.toNat * 2 ^ immF w 0 3 + y.toNat) (2 ^ 32 - 1))
  | 0xA1 => lanesOf fun _ =>
      let l := latchOf e w
      (if w.getLsbD 0 then l.hi else l.lo).signExtend 32
  | 0xA8 => spkOp w a b c
  | 0xA9 => spxOp w a c
  | _ => a

/-- R183: the turn of a SPLIT at firing counter `f`: its D output, or the other. -/
def splitOut (w : Dbl) (f : Nat) : Nat :=
  if f / immF w 0 16 % 2 = 0 then stD w - 8 else immF w 16 2

/-- R183: the output that ROUTE chooses, from the lowest lane in V; `none` when its mask bit is clear. -/
def routeOut (e : PipeIn) (st : PipeOut) (w : Dbl) (k : Nat) : Option Nat :=
  match (List.range 16).find? fun i => e.v.getLsbD i with
  | none => none
  | some i =>
    let o := (readSrc e st (stB w) k i).toNat % 4
    if (immF w 0 4).testBit o then some o else none

/-- Lanes `r` written over `old` where `sel` holds. -/
def mergeLanes (sel : Nat → Bool) (r old : Lanes) : Lanes := lanesOf fun i => if sel i then laneAt r i else laneAt old i

/-- R168: one stage. [log 36 DEDUCED] -/
def runStage (e : PipeIn) (st : PipeOut) (w : Dbl) (k : Nat) : PipeOut :=
  if w = 0 then st
  else
    let r := stageOp e st w k
    let opc := stOpc w
    let sel : Nat → Bool :=
      if 0x80 ≤ opc && opc ≤ 0x82 then fun i => e.v.getLsbD i else selects e st w
    let sats := if opc = 0x61 then
        (List.range 16).countP fun i => e.v.getLsbD i && (lencLane w (readSrc e st (stA w) k i)).2
      else 0
    let put (j : Nat) : List Lanes := st.o.set j (mergeLanes sel r ((st.o[j]?).getD Lanes.zero))
    let st := { st with sats := st.sats + sats }
    match opc with
    | 0x91 => { st with o := put (splitOut w e.f) }
    | 0x93 => match routeOut e st w k with
      | some j => { st with o := put j }
      | none => st
    | 0x92 =>
      let j := stD w - 8
      let m : BitVec 16 := BitVec.ofNat 16 (((List.range 16).map fun i =>
        if sel i && readSrc e st (stA w) k i != 0 then 2 ^ i else 0).foldl (· + ·) 0)
      { st with keep := st.keep.set j (((st.keep[j]?).getD 0) &&& m) }
    | 0xA0 => st
    | _ =>
      let d := stD w
      if d = 0 then { st with p := mergeLanes sel r st.p }
      else if d < 5 then { st with l := st.l.set (d - 1) (mergeLanes sel r ((st.l[d - 1]?).getD Lanes.zero)) }
      else { st with o := put (d - 8) }

/-- R168: the six stages from stage `k`. -/
def runStages (e : PipeIn) : List Dbl → Nat → PipeOut → PipeOut
  | [], _, st => st
  | w :: ws, k, st => runStages e ws (k + 1) (runStage e st w k)

/-- R168: one firing under the words of a scene, from lane-local registers `l`. -/
def pipeFire (e : PipeIn) (ws : List Dbl) (l : List Lanes) : PipeOut :=
  runStages e ws 0
    { p := Lanes.zero, l := l, o := List.replicate 4 Lanes.zero, keep := List.replicate 4 e.v, sats := 0 }

/-- A word writes or names output `k` other than as SPLIT, ROUTE or SCLI. -/
def plainOut (ws : List Dbl) (k : Nat) : Bool :=
  ws.any fun w => w != 0 && stOpc w != 0x91 && stOpc w != 0x93 && stOpc w != 0xA0 && stD w == k + 8

/-- The state before stage `k` of a firing. -/
def before (e : PipeIn) (ws : List Dbl) (l : List Lanes) (k : Nat) : PipeOut := pipeFire e (ws.take k) l

/-- R170, R183: whether a firing places a token on its named output `k`. -/
def placesOn (e : PipeIn) (ws : List Dbl) (l : List Lanes) (k : Nat) : Bool :=
  let idx := List.range ws.length
  let splits := idx.all fun j => match ws[j]? with
    | some w => if w != 0 && stOpc w == 0x91 && (wordOuts w).contains k then splitOut w e.f == k else true
    | none => true
  let routes := idx.all fun j => match ws[j]? with
    | some w => if w != 0 && stOpc w == 0x93 && (wordOuts w).contains k then
        routeOut e (before e ws l j) w j == some k else true
    | none => true
  splits && routes

/-- R189: the scale tokens that SCLI places on output `k` ahead of the data token of a firing. -/
def scliTokens (e : PipeIn) (ws : List Dbl) (l : List Lanes) (k : Nat) : List Byte :=
  match (List.range ws.length).find? fun j => match ws[j]? with
    | some w => w != 0 && stOpc w == 0xA0 && stD w == k + 8
    | none => false with
  | none => []
  | some j =>
    let w := (ws[j]?).getD 0
    if e.f % immF w 0 16 ≠ 0 then []
    else
      let x : W32 := match (List.range 16).find? fun i => e.v.getLsbD i with
        | some i => readSrc e (before e ws l j) (stA w) j i
        | none => 0
      x.extractLsb' 0 8 :: (if w.getLsbD 16 then [x.extractLsb' 8 8] else [])

/-- R169: the largest firing interval that the registers of a scene need. -/
def firingInterval (ws : List Dbl) : Nat :=
  let idx := List.range ws.length
  let reads (w : Dbl) (j : Nat) : Bool := w != 0 && ((sources w).contains (4 + j) || stPS w == j + 1)
  let writes (w : Dbl) (j : Nat) : Bool := w != 0 && stD w == j + 1
  idx.foldl (fun m i => idx.foldl (fun m k =>
    if i ≤ k && (List.range 4).any (fun j => reads ((ws[i]?).getD 0) j && writes ((ws[k]?).getD 0) j)
    then Nat.max m (k - i + 1) else m) m) 1

end Sys2Proof.Machine
end

