-- ==== Sys2Proof/Machine/Fabric.lean ====
section
/-! DEFINITION. Tiles, circuits, credits and markers: the geometry of R12 to R16, routing tables (R98, R386),
slots and credits (R57 to R59, R66 to R69), the firing rule's conditions (R60 to R63), sources and sinks
(R241, R242), and the markers of R64. -/
namespace Sys2Proof.Machine

/-! ## Geometry -/

/-- R96: the tile index of port `k` of side `d` (N, E, S, W as 0 to 3). -/
def portIndex (d k : Nat) : Nat := 256 + 16 * d + k

/-- R13: the interior tile adjacent to a tile: itself for an interior tile. -/
def adjacent (i : Nat) : Nat × Nat :=
  if i < 256 then (i % 16, i / 16)
  else
    let k := i % 16
    match (i - 256) / 16 with
    | 0 => (k, 0)
    | 1 => (15, k)
    | 2 => (k, 15)
    | _ => (0, k)

/-- R12: an M-tile. -/
def isMTile (i : Nat) : Bool := i < 256 && i % 16 % 2 == 1 && i / 16 % 2 == 1

/-- R16: the quadrant of a tile, 0 NW, 1 NE, 2 SW, 3 SE. -/
def quadrant (i : Nat) : Nat := (adjacent i).1 / 8 + 2 * ((adjacent i).2 / 8)

/-- R10: the fabric die on a side of a die. -/
def dieBeside (die d : Nat) : Option Nat :=
  match d with
  | 0 => if 4 ≤ die then some (die - 4) else none
  | 1 => if die % 4 < 3 then some (die + 1) else none
  | 2 => if die < 4 then some (die + 4) else none
  | _ => if 0 < die % 4 then some (die - 1) else none

/-- R386, R69: the tile that a tile's connection in direction `d` leads to, and whether it crosses a die border. -/
def neighbour (t : TileId) (d : Nat) : Option (TileId × Bool) :=
  let i := t.tile
  if i < 256 then
    let x := i % 16
    let y := i / 16
    match d with
    | 0 => some ({ t with tile := if y = 0 then portIndex 0 x else i - 16 }, false)
    | 1 => some ({ t with tile := if x = 15 then portIndex 1 y else i + 1 }, false)
    | 2 => some ({ t with tile := if y = 15 then portIndex 2 x else i + 16 }, false)
    | _ => some ({ t with tile := if x = 0 then portIndex 3 y else i - 1 }, false)
  else
    let side := (i - 256) / 16
    let k := i % 16
    if d = (side + 2) % 4 then some ({ t with tile := tileIndex (adjacent i).1 (adjacent i).2 }, false)
    else if d = side then
      match dieBeside t.die side with
      | some die => some ({ die := die, tile := portIndex ((side + 2) % 4) k }, true)
      | none => none
    else none

/-- R235: whether a region holds a tile of its die. -/
def RegionSt.holds (r : RegionSt) (t : TileId) : Bool :=
  let (x, y) := adjacent t.tile
  t.die == r.die && r.x0 ≤ x && x < r.x0 + r.w && r.y0 ≤ y && y < r.y0 + r.h

/-- R235: the tiles of a region, in the order of R62: interior tiles by index, then port tiles. -/
def RegionSt.tiles (r : RegionSt) : List TileId :=
  ((List.range 320).map fun i => ({ die := r.die, tile := i } : TileId)).filter r.holds

/-- R353: the region of a rectangle word on a die. -/
def rectRegion (die : Nat) (w : W32) : RegionSt :=
  { RegionSt.zero with
    die := die, x0 := (w.extractLsb' 12 4).toNat, y0 := (w.extractLsb' 8 4).toNat,
    w := (w.extractLsb' 4 4).toNat + 1, h := (w.extractLsb' 0 4).toNat + 1 }

/-- R236: an act that stands on its region: one that is switched out or free does not. -/
def Act.present (a : Act) : Bool := a.life != .free && a.life != .switchedOut

/-- R370: an act whose switch-out has begun executes no further instruction. -/
def Act.leaving (a : Act) : Bool :=
  match a.curtain with
  | some c => c.reason != 4
  | none => false

/-- R236: the act that governs a tile: of the acts whose region holds it, the one with the smallest region, a
spawned act before its spawner. -/
def State.ownerOf (s : State) (t : TileId) : Option Nat :=
  (argMin (fun p : Nat × Act => 2 * (p.2.region.w * p.2.region.h) + (if p.2.parent.isSome then 0 else 1))
    (s.acts.filter fun p => p.2.present && p.2.region.holds t)).map (·.1)

/-- R236: the tiles on which the SCENE instructions of an act work. -/
def State.ownTiles (s : State) (id : Nat) : List TileId :=
  (s.act id).region.tiles.filter fun t => s.ownerOf t == some id

/-- R236: whether a tile is of the region of an act, and of none that it has spawned. -/
def State.mine (s : State) (id : Nat) (t : TileId) : Bool := s.ownerOf t == some id

/-- R429: whether the repair map lists an interior tile. -/
def State.listed (s : State) (t : TileId) : Bool :=
  s.fab.repair.any fun w => (w.extractLsb' 29 3).toNat == t.die && (w.extractLsb' 27 2 == 0)
    && (w.extractLsb' 15 12).toNat == t.tile

/-- R316: the operating point of a tile's quadrant, and its cycles per interval. -/
def State.point (s : State) (t : TileId) : Nat := tally (t.die * 4 + quadrant t.tile) s.fab.points
def pointCycles (p : Nat) : Nat :=
  match p with
  | 0 => 2300
  | 1 => 1800
  | 2 => 1200
  | _ => 0

/-- R320: whether the quadrant clock of a tile ticks in a fabric cycle. -/
def State.ticksAt (s : State) (t : TileId) (n : Nat) : Bool :=
  let c := pointCycles (s.point t)
  decide (n * c / 2300 < (n + 1) * c / 2300)

/-- R320: whether the quadrant clock of a tile ticks in this fabric cycle. -/
def State.ticks (s : State) (t : TileId) : Bool := s.ticksAt t s.cycle

/-- R68: the cycles that an elastic buffer adds at the border into a quadrant, in whole fabric cycles; 3 where the quadrant's clock
stands. [log 122 DESIGN CHOICE] -/
def elasticDelay (c : Nat) : Nat := if c = 0 then 3 else (3 * 2300 + c - 1) / c

/-! ## Configuration of a tile -/

/-- The words of a tile's scene slot. -/
def State.cfg (s : State) (t : TileId) (scene : Nat) : Option TileCfg := ((s.tile t).cfg[scene]?).join

/-- R97: whether port `i` is enabled (inputs 0 to 3, outputs 4 to 7), its slot count, and whether it is a
boundary node. -/
def TileCfg.enabled (c : TileCfg) (i : Nat) : Bool := ((c.ports[i]?).getD 0).getLsbD 63
def TileCfg.slotsOf (c : TileCfg) (i : Nat) : Nat := bits ((c.ports[i]?).getD 0) 59 4

/-- R90: fields of a matrix node word. -/
def nodeMode (w : Dbl) : Nat := bits w 60 4
def nodeAF (w : Dbl) : Bool := bits w 58 2 == 1
def nodeDF (w : Dbl) : Nat := bits w 56 2
def nodeBS (w : Dbl) : Nat := bits w 52 4
def nodeAP (w : Dbl) : Nat := bits w 50 2
def nodeMP (w : Dbl) : Nat := bits w 48 2
def nodeOP (w : Dbl) : Nat := bits w 46 2
def nodeSPN (w : Dbl) : Nat := bits w 40 6

/-- Whether an element exists in a scene (R238). -/
def TileCfg.has (c : TileCfg) (e : Element) : Bool :=
  match e with
  | .pipe => (c.role == 1 || c.role == 2) && c.stages.any (· != 0)
  | .node => c.node
  | .agen => c.role == 3

/-- R60, R166, R193: the named inputs of an element of a scene. -/
def TileCfg.inputsOf (c : TileCfg) (e : Element) : List Nat :=
  match e with
  | .pipe => pipeInputs c.stages
  | .node => if nodeMode c.nodeWord = 1 then [nodeAP c.nodeWord, nodeMP c.nodeWord] else [nodeAP c.nodeWord]
  | .agen => (List.range 4).filter fun i => c.enabled i

/-- R60, R166, R193: the named destinations of an element of a scene. -/
def TileCfg.outputsOf (c : TileCfg) (e : Element) : List Nat :=
  match e with
  | .pipe => pipeOutputs c.stages
  | .node => if nodeMode c.nodeWord = 3 || nodeMode c.nodeWord = 4 then [nodeOP c.nodeWord] else []
  | .agen => (List.range 4).filter fun i => c.enabled (4 + i)

/-! ## Routes (R57, R66, R98, R386) -/

/-- R98: the routing word of a tile for entry `e` in a scene. -/
def State.routeWord (s : State) (t : TileId) (scene e : Nat) : W32 :=
  match s.cfg t scene with
  | some c => (c.routes[e]?).getD 0
  | none => 0

/-- R241, R248: the scene whose routing words act on a token of act `id` in a tile: its own in its region, and
the scene in force in another region. -/
def State.routeScene (s : State) (id : Nat) (scene : Nat) (t : TileId) : Nat :=
  match s.ownerOf t with
  | none => scene
  | some o => if o = id then scene else
      if (s.act o).root.getD o = (s.act id).root.getD id then scene else (s.act o).region.cur

/-- R367: whether a hedge stands between two tiles. -/
def State.hedged (s : State) (t u : TileId) : Bool := (s.tile t).tag != (s.tile u).tag

/-- R371: a tile that an act of the same launch governs which is switched out. -/
def State.away (s : State) (id : Nat) (t : TileId) : Bool :=
  (s.act id).launch.isSome &&
  match argMin (fun p : Nat × Act => 2 * (p.2.region.w * p.2.region.h) + (if p.2.parent.isSome then 0 else 1))
    (s.acts.filter fun p => p.2.life != .free && p.2.launch == (s.act id).launch && p.2.region.holds t) with
  | some p => p.2.life == .switchedOut
  | none => false

/-- R98: the directions and circuit numbers that a routing word sends to. -/
def routeDirs (w : W32) : List (Nat × Nat) :=
  (List.range 4).filterMap fun d =>
    if w.getLsbD (30 - d) then some (d, (w.extractLsb' (24 - 2 * d) 2).toNat) else none

/-- R69, R386: a branch that leaves the die and reaches no consumer is dropped at the sending switchbox. [log 39 DEDUCED] -/
def offDie (l : List (Dest × Nat)) (hops : Nat) : List (Dest × Nat) :=
  if l.all (fun p => match p.1 with
    | .input _ _ => true
    | .away _ => true
    | _ => false) then l else [(.off, hops)]

/-- R57, R68, R69: the cycles that the hop from `t` to its neighbour `u` takes; a die crossing passes no elastic buffer beside its link,
whether the link is up or down. [log 122 DESIGN CHOICE] -/
def State.hopDelay (s : State) (t u : TileId) (cross : Bool) : Nat :=
  1 + (if cross then 48 else if quadrant t.tile != quadrant u.tile then elasticDelay (pointCycles (s.point u)) else 0)

/-- The hops after which a walk along a route has met some routing entry twice: a route without a cycle is shorter. -/
def routeFuel : Nat := 8 * 320 * 16 + 1

/-- R57, R66: the branches of a route from a routing word, with the cycles to each end. [log 122 DESIGN CHOICE] -/
def follow (s : State) (id scene : Nat) : Nat → TileId → W32 → Nat → List (Dest × Nat)
  | 0, _, _, h => [(.off, h)]
  | n + 1, t, w, h =>
    if !w.getLsbD 31 then [(.off, h)]
    else
      (if w.getLsbD 26 then [(.input t (w.extractLsb' 16 2).toNat, Nat.max h 1)] else []) ++
      (routeDirs w).flatMap fun (d, c) =>
        match neighbour t d with
        | none => [(.off, h)]
        | some (u, cross) =>
          let arrive := (d + 2) % 4
          let l := if s.hedged t u then [(Dest.hedge u arrive c, h + 1)]
            else if s.listed u then [(.listed u, h + 1)]
            else if s.away id u then [(.away u, h + 1)]
            else follow s id scene n u (s.routeWord u (s.routeScene id scene u) (4 * arrive + c)) (h + s.hopDelay t u cross)
          if cross then offDie l h else l

/-- R57: the connections that a token of a route crosses, each with its circuit and the cycles after its placing. -/
def trail (s : State) (id scene : Nat) : Nat → TileId → W32 → Nat → List (Wire × Nat × Nat)
  | 0, _, _, _ => []
  | n + 1, t, w, h =>
    if !w.getLsbD 31 then []
    else (routeDirs w).flatMap fun (d, c) =>
      match neighbour t d with
      | none => []
      | some (u, cross) =>
        let arrive := (d + 2) % 4
        ({ t := t, dir := d }, c, h) ::
          (if s.hedged t u || s.listed u || s.away id u then []
           else trail s id scene n u (s.routeWord u (s.routeScene id scene u) (4 * arrive + c)) (h + s.hopDelay t u cross))

/-- R57, R68, R69, R253: a channel's way from a tile: where a hedge, a listed tile or a region that is switched out ends it before its
consumer, and the cycles that it takes. -/
def State.walkPath (s : State) (id : Nat) : List (Nat × Nat) → TileId → Nat → Option Dest × Nat
  | [], _, h => (none, h)
  | (d, c) :: l, t, h =>
    match neighbour t d with
    | none => (some .off, h)
    | some (u, cross) =>
      if s.hedged t u then (some (.hedge u ((d + 2) % 4) c), h + 1)
      else if s.listed u then (some (.listed u), h + 1)
      else if s.away id u then (some (.away u), h + 1)
      else s.walkPath id l u (h + s.hopDelay t u cross)

/-- R57: the connections that a token of a channel crosses, each with its circuit and the cycles after its placing. -/
def State.pathTrail (s : State) (id : Nat) : List (Nat × Nat) → TileId → Nat → List (Wire × Nat × Nat)
  | [], _, _ => []
  | (d, c) :: l, t, h =>
    match neighbour t d with
    | none => []
    | some (u, cross) => ({ t := t, dir := d }, c, h) ::
        (if s.hedged t u || s.listed u || s.away id u then [] else s.pathTrail id l u (h + s.hopDelay t u cross))

/-- R57: the tiles that a channel's way enters, in order; none for a way that leaves the package. -/
def pathTiles : List (Nat × Nat) → TileId → Option (List TileId)
  | [], _ => some []
  | (d, _) :: l, t => match neighbour t d with
    | none => none
    | some (u, _) => (pathTiles l u).map (u :: ·)

/-- R57, R68, R69: the cycles that a channel's way takes. -/
def State.pathHops (s : State) : List (Nat × Nat) → TileId → Nat
  | [], _ => 0
  | (d, _) :: l, t => match neighbour t d with
    | none => 0
    | some (u, cross) => s.hopDelay t u cross + s.pathHops l u

/-- R57: the connections of a channel's way, each with its circuit. -/
def pathWires : List (Nat × Nat) → TileId → List (Wire × Nat)
  | [], _ => []
  | (d, c) :: l, t => ({ t := t, dir := d }, c) :: match neighbour t d with
    | none => []
    | some (u, _) => pathWires l u

/-- R253, R371: the branch of a channel, with its h; one whose way is not known ends at its consumer, or at a region that is switched
out. -/
def State.channelEnd (s : State) (c : Channel) : Link × Nat :=
  match c.path, c.link.dest with
  | [], .input u _ => if s.away c.act u then ({ c.link with dest := .away u }, c.hops) else (c.link, c.hops)
  | [], _ => (c.link, c.hops)
  | p, _ => match s.walkPath c.act p c.link.src 0 with
    | (none, h) => (c.link, h)
    | (some d, h) => ({ c.link with dest := d }, h)

/-- The channels that leave an output of a tile in a scene. -/
def State.channelsAt (s : State) (id : Nat) (t : TileId) (out scene : Nat) : List Channel :=
  s.fab.channels.filter fun c => c.act == id && c.link.src == t && c.link.out == out && c.link.scene == scene

/-- R58, R66, R253: the branches of the circuit that leaves output `out` of a tile in a scene, with h. -/
def State.branches (s : State) (id : Nat) (t : TileId) (out scene : Nat) : List (Link × Nat) :=
  let bs := (follow s id scene routeFuel t (s.routeWord t scene (16 + out)) 0).map fun p =>
    (({ src := t, out := out, scene := scene, dest := p.1 } : Link), Nat.max p.2 1)
  match s.channelsAt id t out scene with
  | [] => bs
  | cs => (bs.filter fun b => match b.1.dest with
      | .input u _ => s.mine id u
      | _ => false) ++ cs.map s.channelEnd

/-- R386: a tile that the act of another launch or spawn tree governs. -/
def State.foreign (s : State) (id : Nat) (t : TileId) : Bool :=
  match s.ownerOf t with
  | none => false
  | some o => o != id && (s.act o).root.getD o != (s.act id).root.getD id

/-- R98, R248, R386: the slot count of a branch; one that reaches another region without a channel has 1. -/
def State.linkSlots (s : State) (id : Nat) (l : Link) : Nat :=
  match s.fab.channels.find? fun c => c.act == id && c.link == l with
  | some c => c.slots
  | none =>
  match l.dest with
  | .input t i =>
    if s.foreign id t then 1
    else match s.cfg t (s.routeScene id l.scene t) with
    | some c => c.slotsOf i
    | none => 0
  | _ => 1

/-- R371: a branch that ends in a region that is switched out. -/
def Link.isAway (l : Link) : Bool :=
  match l.dest with
  | .away _ => true
  | _ => false

/-- R58, R59: whether a token may be placed on a branch: a credit, or the consumer's request. -/
def State.canPlace (s : State) (id : Nat) (l : Link) : Bool :=
  let n := s.linkSlots id l
  if l.isAway then false
  else if n = 0 then s.fab.requests.any fun r => r.1 == l && r.2 ≤ s.cycle
  else decide (tally l s.fab.windows < n)

/-- The credits left on a branch (R58, R67). -/
def State.credits (s : State) (id : Nat) (l : Link) : Nat :=
  let n := s.linkSlots id l
  if l.isAway then 0 else if n = 0 then (if s.canPlace id l then 1 else 0) else n - tally l s.fab.windows

/-- R58, R59, R67: a credit taken on a branch, or the request of its input used. -/
def State.takeCredit (s : State) (id : Nat) (l : Link) : State :=
  if s.linkSlots id l = 0 then { s with fab := { s.fab with requests := s.fab.requests.filter (·.1.dest != l.dest) } }
  else { s with fab := { s.fab with windows := assocSet l (tally l s.fab.windows + 1) s.fab.windows } }

/-- A credit on its way back, usable from cycle `due`. -/
def State.returnCredit (s : State) (l : Link) (due : Nat) : State :=
  { s with fab := { s.fab with returns := s.fab.returns ++ [(due, l)] } }

/-- Every branch of an output has a credit for each of `n` tokens (R60, R66). -/
def State.ready (s : State) (id : Nat) (t : TileId) (out scene n : Nat) : Bool :=
  (s.branches id t out scene).all fun b => decide (n ≤ s.credits id b.1)

/-- The credits of `n` tokens taken on every branch of an output. -/
def State.takeAll (s : State) (id : Nat) (t : TileId) (out scene n : Nat) : State :=
  (s.branches id t out scene).foldl (fun s b => (List.range n).foldl (fun s _ => s.takeCredit id b.1) s) s

/-- R363: a context as one to which drops are charged. -/
def State.offender (s : State) (ctx : Nat) : Offender :=
  let c := s.ctx ctx
  { ctx := ctx, parent := c.parent, part := c.part, depth := c.depth }

/-- R367, R386: the context that answers for a token of act `id` on a branch: at a hedge that of the act which owns the sending tile. -/
def State.answers (s : State) (id : Nat) (d : Dest) : Nat :=
  let sender : Option TileId := match d with
    | .hedge u dir _ => (neighbour u dir).map (·.1)
    | _ => none
  (s.act ((sender.bind s.ownerOf).getD id)).ctx

/-- R61, R66: a token placed on every branch of an output in this cycle, its credits already taken. [log 124 DESIGN CHOICE] -/
def State.placeTok (s : State) (id : Nat) (t : TileId) (out scene : Nat) (tok : Token) : State :=
  (s.branches id t out scene).foldl (fun s b =>
    match b.1.dest with
    | .input u i =>
      let e : BufTok := { tok := tok, valid := s.cycle + b.2, link := b.1, hops := b.2, credit := true,
                          entered := s.mine id u, bad := false }
      s.updTile u fun x => { x with inbuf := x.inbuf.set i (((x.inbuf[i]?).getD []) ++ [e]), touched := true }
    | _ =>
      let d : DropTok := { due := s.cycle + b.2, who := s.offender (s.answers id b.1.dest), link := b.1, tok := tok }
      { s with fab := { s.fab with drops := s.fab.drops ++ [d] } }) s

/-! ## Connections shared by circuits (R57, R68, R320) -/

/-- R57: the connections that a token placed now on an output would cross, and when. -/
def State.crossings (s : State) (id : Nat) (t : TileId) (out scene : Nat) : List Crossing :=
  (trail s id scene routeFuel t (s.routeWord t scene (16 + out)) 0 ++
      (s.channelsAt id t out scene).flatMap fun c => s.pathTrail id c.path t 0).map fun p =>
    { wire := p.1, circ := p.2.1, at_ := s.cycle + p.2.2, from_ := s.cycle }

/-- Whether two tokens would cross one connection in one cycle. -/
def Crossing.meets (a b : Crossing) : Bool := a.wire == b.wire && a.at_ == b.at_

/-- R68, R320: at the border between quadrants at different points a token moves in a cycle of the slower clock. -/
def State.clocked (s : State) (c : Crossing) : Bool :=
  match neighbour c.wire.t c.wire.dir with
  | none => true
  | some (u, _) => s.point c.wire.t == s.point u || s.ticksAt (if s.point c.wire.t < s.point u then u else c.wire.t) c.at_

/-- R57: the place of a circuit in its connection's round robin, 0 for the circuit whose turn it is. -/
def State.rank (s : State) (c : Crossing) : Nat := (c.circ + 4 - tally c.wire s.fab.turns % 4) % 4

/-- R57: among the requests `asks` of this cycle there is one, by a circuit whose turn comes first, for the same connection and cycle. -/
def State.yields (s : State) (asks : List Crossing) (c : Crossing) : Bool :=
  asks.any fun a => a.meets c && a.circ != c.circ && a.from_ == s.cycle && decide (s.rank a < s.rank c)

/-- R57, R68: no connection moves another token in the cycle in which a token placed now would cross it. -/
def State.wiresFree (s : State) (cs : List Crossing) : Bool :=
  cs.all fun c => s.clocked c && !(s.fab.flights.any (·.meets c))

/-- R57: the connections grant a token: each moves it in the cycle in which it comes by, and its circuit's turn is over. -/
def State.cross (s : State) (cs : List Crossing) : State :=
  let turns := cs.foldl (fun l c => assocSet c.wire ((c.circ + 1) % 4) l) s.fab.turns
  { s with fab := { s.fab with flights := s.fab.flights ++ cs, turns := turns } }

/-- R57: crossings that were not granted are asked for again in the next cycle. -/
def State.askAgain (s : State) (cs : List Crossing) : State :=
  let next := cs.map fun c => { c with at_ := c.at_ + 1, from_ := c.from_ + 1 }
  { s with fab := { s.fab with asked := s.fab.asked ++ next } }

/-- R57: flights that have passed and requests of earlier cycles forgotten. -/
def State.clearWires (s : State) : State :=
  { s with fab := { s.fab with flights := s.fab.flights.filter fun c => decide (s.cycle ≤ c.at_),
                               asked := s.fab.asked.filter fun c => decide (s.cycle ≤ c.from_) } }

/-- R241: no marker is placed on a branch that ends in another region. [log 53 DEDUCED] -/
def State.inRegion (s : State) (id : Nat) (l : Link) : Bool :=
  match l.dest with
  | .input u _ => s.mine id u
  | _ => false

/-- The branches of an output that end in the act's region. -/
def State.ownBranches (s : State) (id : Nat) (t : TileId) (out scene : Nat) : List (Link × Nat) :=
  (s.branches id t out scene).filter fun b => s.inRegion id b.1

/-- R64: a marker placed on every branch of an output that ends in the region, its credits already taken. -/
def State.placeMarker (s : State) (id : Nat) (t : TileId) (out scene : Nat) (tok : Token) : State :=
  (s.ownBranches id t out scene).foldl (fun s b =>
    match b.1.dest with
    | .input u i =>
      let e : BufTok := { tok := tok, valid := s.cycle + b.2, link := b.1, hops := b.2, credit := true, entered := true, bad := false }
      s.updTile u fun x => { x with inbuf := x.inbuf.set i (((x.inbuf[i]?).getD []) ++ [e]) }
    | _ => s) s

/-- A pending output placed: a marker where R241 lets it go, and any other token on every branch. -/
def State.placeOut (s : State) (id : Nat) (t : TileId) (p : PendingOut) : State :=
  if p.tok.ctl && p.tok.mark then
    let bs := s.ownBranches id t p.out p.scene
    let s := if p.paid then s else bs.foldl (fun s b => s.takeCredit id b.1) s
    s.placeMarker id t p.out p.scene p.tok
  else
    let s := if p.paid then s else s.takeAll id t p.out p.scene 1
    s.placeTok id t p.out p.scene p.tok

/-- R371: whether a pending output that is due may be placed now; one whose consumer's region is switched out waits. -/
def State.outReady (s : State) (id : Nat) (t : TileId) (p : PendingOut) : Bool :=
  if p.tok.ctl && p.tok.mark then p.paid || (s.ownBranches id t p.out p.scene).all fun b => s.canPlace id b.1
  else if p.paid then (s.branches id t p.out p.scene).all fun b => !b.1.isAway
  else s.ready id t p.out p.scene 1

/-- R61, R64, R316: whether a pending output may be placed now, but for the connections: it is due, the tile's clock ticks, its output
has placed nothing in this cycle, and it has its credits. -/
def State.outDue (s : State) (id : Nat) (t : TileId) (p : PendingOut) : Bool :=
  decide (p.due ≤ s.cycle) && s.ticks t && decide (((s.tile t).portNext[4 + p.out]?).getD 0 ≤ s.cycle) && s.outReady id t p

/-- The outgoing tokens of a tile placed in order: one that is not due, has no credit, or to which a connection gives no way, holds
those behind it on the same output. `asks` are the requests of R57 to which it may have to yield. -/
def flushOuts (id : Nat) (t : TileId) (asks : List Crossing) :
    List PendingOut → List Nat → List PendingOut → State → State × List PendingOut
  | [], _, kept, s => (s, kept)
  | p :: l, stuck, kept, s =>
    let cs := s.crossings id t p.out p.scene
    if !stuck.contains p.out && s.outDue id t p && s.wiresFree cs && !(cs.any (s.yields asks)) then
      let s := ((s.placeOut id t p).cross cs).updTile t fun x => { x with portNext := x.portNext.set (4 + p.out) (s.cycle + 1) }
      flushOuts id t asks l (p.out :: stuck) kept s
    else flushOuts id t asks l (p.out :: stuck) (kept ++ [p]) s

/-- Every outgoing token of a tile that may be placed in this cycle is placed, one an output. -/
def State.flushTile (s : State) (t : TileId) (asks : List Crossing) : State :=
  match s.ownerOf t with
  | none => s
  | some id =>
    let (s', kept) := flushOuts id t asks (s.tile t).outq [] [] s
    s'.updTile t fun x => { x with outq := kept }

/-- R57: the crossings that the first token of each output of a tile asks for in this cycle. -/
def State.asksOf (s : State) (t : TileId) : List Crossing :=
  match s.ownerOf t with
  | none => []
  | some id => (List.range 4).flatMap fun o =>
    match (s.tile t).outq.find? (·.out == o) with
    | some p => if s.outDue id t p then s.crossings id t o p.scene else []
    | none => []

/-- R379: an element of the region has fired, placed, consumed or passed something in this cycle. -/
def State.moved (s : State) (id : Nat) : State :=
  s.updAct id fun a => { a with progress := true }

/-- R61: the tokens of a tile that may be placed in this cycle are placed, which is progress of its region (R379). -/
def State.sendTile (s : State) (t : TileId) (asks : List Crossing) : State :=
  let before := (s.tile t).outq.length
  let s := s.flushTile t asks
  if (s.tile t).outq.length < before then
    match s.ownerOf t with
    | some id => s.moved id
    | none => s
  else s

/-! ## Tokens at inputs -/

/-- R374: a token that came from another region, at an entry whose replay store is full. [log 79 DEDUCED] -/
def State.entryFull (s : State) (t : TileId) (i : Nat) (b : BufTok) : Bool :=
  b.credit && decide (16 ≤ ((s.tile t).replay.filter (·.1 == i)).length) && match s.ownerOf t with
    | some id => !s.mine id b.link.src
    | none => false

/-- The token at the head of an input, once it is valid and has entered the region. -/
def State.head (s : State) (t : TileId) (i : Nat) : Option BufTok :=
  match ((s.tile t).inbuf[i]?).getD [] with
  | [] => none
  | b :: _ => if b.valid ≤ s.cycle && b.entered && !b.bad && !s.entryFull t i b then some b else none

/-- R58, R367: the head of an input consumed; its credit returns h cycles later. -/
def State.consume (s : State) (t : TileId) (i : Nat) : State :=
  match ((s.tile t).inbuf[i]?).getD [] with
  | [] => s
  | b :: rest =>
    let s := s.updTile t fun x =>
      { x with inbuf := x.inbuf.set i rest, touched := x.touched || !(b.tok.ctl && b.tok.mark) }
    if b.credit && s.linkSlots ((s.ownerOf b.link.src).getD 0) b.link ≠ 0 then s.returnCredit b.link (s.cycle + b.hops)
    else s

def isData (b : BufTok) : Bool := !b.tok.ctl
def isMarker (b : BufTok) : Bool := b.tok.ctl && b.tok.mark
def isClose (b : BufTok) : Bool := b.tok.ctl && !b.tok.mark && b.tok.kind == 2
def isScale (b : BufTok) : Bool := b.tok.ctl && !b.tok.mark && b.tok.kind == 1

/-- R55: tokens. -/
def dataTok (scene : Nat) (lv : BitVec 16) (l : Lanes) : Token :=
  { ctl := false, sc := BitVec.ofNat 2 scene, mark := false, kind := 0, arg := 0, lv := lv, lanes := maskLanes lv l }
def scaleTok (scene : Nat) (sigma : Byte) : Token :=
  { ctl := true, sc := BitVec.ofNat 2 scene, mark := false, kind := 1, arg := sigma, lv := 0, lanes := Lanes.zero }
def closeTok (scene : Nat) : Token :=
  { ctl := true, sc := BitVec.ofNat 2 scene, mark := false, kind := 2, arg := 0, lv := 0, lanes := Lanes.zero }
/-- R55: a marker: kind 1 curtain, 2 mark, 3 scene-end curtain. -/
def markerTok (kind scene : Nat) (num : Byte) : Token :=
  { ctl := true, sc := BitVec.ofNat 2 scene, mark := true, kind := BitVec.ofNat 4 kind, arg := num, lv := 0,
    lanes := Lanes.zero }

/-- R241, R257, R258: whether a tile holds a token of a scene, in a buffer or on its way out; a token that has not entered the region has
no scene of it. -/
def Tile.hasScene (x : Tile) (scene : Nat) : Bool :=
  (x.inbuf.any fun l => l.any fun b => b.entered && b.tok.sc.toNat == scene) || x.outq.any fun p => p.scene == scene

/-- R257: whether a tile of an act's region holds a scene. -/
def State.holdsScene (s : State) (a : Act) (t : TileId) (scene : Nat) : Bool :=
  a.region.cur == scene || (a.ends.any fun e => e.scene == scene && (e.elems.any (·.1 == t) || e.sinks.any (·.1 == t))) || (s.tile t).hasScene scene

/-- R60: the scene under which an element may fire on its heads: every named input shows a data token of that
scene, and the tile holds it. -/
def State.firingScene (s : State) (a : Act) (t : TileId) (e : Element) : Option Nat :=
  (List.range 4).find? fun sc =>
    match s.cfg t sc with
    | none => false
    | some c =>
      c.has e && s.holdsScene a t sc && c.inputsOf e != [] &&
      (c.inputsOf e).all fun i => match s.head t i with
        | some b => isData b && b.tok.sc.toNat == sc
        | none => false

/-! ## Regions: sources and sinks (R241, R242) -/

/-- The elements of a region in a scene. -/
def State.elements (s : State) (id scene : Nat) : List (TileId × Element) :=
  (s.ownTiles id).flatMap fun t =>
    match s.cfg t scene with
    | none => []
    | some c => ([.pipe, .node, .agen] : List Element).filterMap fun e => if c.has e then some (t, e) else none

/-- R242: the sinks of a scene: the write side of an address generator, and every element with no named
destination in the region. -/
def State.sinks (s : State) (id scene : Nat) : List (TileId × Element) :=
  (s.elements id scene).filter fun p =>
    match s.cfg p.1 scene with
    | none => false
    | some c =>
      c.inputsOf p.2 != [] &&
      (p.2 == .agen || (c.outputsOf p.2).all fun o => (s.ownBranches id p.1 o scene).isEmpty)

/-- R241: the sources with a circuit of their own: address generators, and elements with no named input. -/
def State.sources (s : State) (id scene : Nat) : List (TileId × Element) :=
  (s.elements id scene).filter fun p =>
    match s.cfg p.1 scene with
    | none => false
    | some c => p.2 == .agen || c.inputsOf p.2 == []

/-- The branches of the circuits that begin in the region of an act. -/
def State.actLinks (s : State) (id : Nat) : List Link :=
  (s.ownTiles id).flatMap fun u => (List.range 4).flatMap fun sc =>
    match s.cfg u sc with
    | none => []
    | some c => ((List.range 4).filter fun o => c.enabled (4 + o)).flatMap fun o => (s.branches id u o sc).map (·.1)

/-- R241: whether the circuit of another act ends at input `i` of a tile: one that stands, one that is switched out, or one that has
ended and whose circuit the input still has. -/
def State.feeds (s : State) (id : Nat) (t : TileId) (i : Nat) : Bool :=
  (s.fab.fed.any fun f => f.1 != some id && f.2 == (t, i)) || (s.fab.channels.any fun c => c.act != id && c.link.dest == .input t i) ||
  s.acts.any fun p => p.1 != id && p.2.life != .free && (s.actLinks p.1).any fun l => l.dest == .input t i

/-- R241: the inputs of other regions at which the circuits of act `id` end stay fed while it does not stand on its tiles: `who` is the
act, or none when it has ended. [log 53 DEDUCED] -/
def State.keepFed (s : State) (id : Nat) (who : Option Nat) : State :=
  let ends := (s.actLinks id).filterMap fun l => match l.dest with
    | .input u i => if s.mine id u then none else some (who, u, i)
    | _ => none
  let old := s.fab.fed.map fun f => if f.1 = some id then (who, f.2) else f
  { s with fab := { s.fab with fed := old ++ (ends.filter fun f => !old.contains f).eraseDups } }

/-- R241: act `id` ends: the circuits that it had into other regions have still fed their inputs, and its own inputs are no entries. -/
def State.leaveFed (s : State) (id : Nat) : State :=
  let s := s.keepFed id none
  { s with fab := { s.fab with fed := s.fab.fed.filter fun f => !(s.mine id f.2.1) } }

/-- R241: act `id` stands on its tiles again. -/
def State.dropFed (s : State) (id : Nat) : State := { s with fab := { s.fab with fed := s.fab.fed.filter (·.1 != some id) } }

/-- R241: the region entries of a region: inputs whose circuit begins in another region. -/
def State.entries (s : State) (id : Nat) : List (TileId × Nat) :=
  (s.ownTiles id).flatMap fun t => (List.range 4).filterMap fun i => if s.feeds id t i then some (t, i) else none

/-- R241: a token that has become valid at a region entry takes a scene. -/
def BufTok.enter (b : BufTok) (scene : Nat) : BufTok :=
  if b.entered then b else { b with entered := true, tok := { b.tok with sc := BitVec.ofNat 2 scene } }

/-- R241: the tokens that have become valid at the entries of a region take a scene. -/
def State.enterValid (s : State) (id scene : Nat) : State :=
  (s.entries id).foldl (fun s p => s.updTile p.1 fun x =>
    { x with inbuf := x.inbuf.set p.2 (((x.inbuf[p.2]?).getD []).map fun b =>
        if b.valid ≤ s.cycle then b.enter scene else b) }) s

/-- R263: the order of the markers that fall due at one source in one cycle. -/
def markerRank (kind : Nat) : Nat :=
  match kind with
  | 3 => 0
  | 1 => 1
  | _ => 2

/-- R263: a marker that a marker of `kind` goes ahead of, where both fall due in one cycle. -/
def Token.after (k : Token) (kind : Nat) : Bool := k.ctl && k.mark && decide (markerRank kind < markerRank k.kind.toNat)

/-- R263: a marker of `kind` joins the outgoing tokens of a tile, ahead of those of its cycle and output that come after it. -/
def queueMarker (kind : Nat) (p : PendingOut) : List PendingOut → List PendingOut
  | [] => [p]
  | q :: l => if q.out = p.out && !q.paid && q.due = p.due && q.tok.after kind then p :: q :: l else q :: queueMarker kind p l

/-- R262, R263: a marker stands at a region entry behind the tokens that are valid there, ahead of those of its cycle that come after it. -/
def standMarker (kind cycle scene : Nat) (e : BufTok) : List BufTok → List BufTok
  | [] => [e]
  | b :: l =>
    if decide (cycle < b.valid) || (b.valid = cycle && !b.credit && b.link.dest = .off && b.tok.after kind) then e :: b :: l
    else b.enter scene :: standMarker kind cycle scene e l

/-- R137, R262, R263: a marker at every source of a region, tagged with a scene, placed in this cycle where its destination has a credit,
and behind the tokens that the source has produced before it. At a region entry it stands behind the tokens there and needs no slot. [log 135 DEDUCED] -/
def State.insertMarker (s : State) (id kind scene : Nat) (num : Byte) : State :=
  let tok := markerTok kind scene num
  -- R257: the next curtain is the one that a SCENE.RUN's old scene waits for.
  let els := s.elements id scene
  let sk := s.sinks id scene
  let s := if kind = 2 then s else s.updAct id fun a =>
    { a with ends := a.ends.map fun w => if w.num.isNone then { w with num := some num, tag := scene, elems := els, sinks := sk } else w }
  let s := (s.sources id scene).foldl (fun s p =>
    let outs := match s.cfg p.1 scene with
      | some c => c.outputsOf p.2
      | none => []
    outs.foldl (fun s o => if (s.ownBranches id p.1 o scene).isEmpty then s
      else s.updTile p.1 fun x =>
        { x with outq := queueMarker kind { due := s.cycle, out := o, scene := scene, tok := tok, paid := false } x.outq }) s) s
  (s.entries id).foldl (fun s p =>
    let e : BufTok := { tok := tok, valid := s.cycle, link := { src := p.1, out := 0, scene := scene, dest := .off }, hops := 1,
                        credit := false, entered := true, bad := false }
    s.updTile p.1 fun x => { x with inbuf := x.inbuf.set p.2 (standMarker kind s.cycle scene e ((x.inbuf[p.2]?).getD [])) }) s

/-- R262: the tiles at whose outputs a marker of this cycle waits place it now, where they can. -/
def State.sendMarkers (s : State) : State :=
  let due (x : Tile) : Bool := x.outq.any fun p => p.tok.ctl && p.tok.mark && !p.paid && p.due == s.cycle
  ((s.fab.tiles.filter fun p => due p.2).map (·.1)).foldl (fun s t => s.sendTile t s.fab.asked) s

/-- R263: a marker of an act, inserted in this cycle, taken back from its sources. -/
def State.takeMarker (s : State) (id kind : Nat) (num : Byte) : State :=
  let of (k : Token) : Bool := k.ctl && k.mark && k.kind.toNat == kind && k.arg == num
  (s.ownTiles id).foldl (fun s t => s.updTile t fun x =>
    { x with outq := x.outq.filter (fun p => !(of p.tok && !p.paid)), inbuf := x.inbuf.map fun l => l.filter fun b => !(of b.tok && !b.credit) }) s

/-! ## Power and energy (R62, R317) -/

/-- R317: the class of a firing of an element under a scene, and the energy in pJ at point 0. -/
def TileCfg.classOf (c : TileCfg) (e : Element) : Nat :=
  match e with
  | .pipe => if c.role = 2 then 2 else if c.stages.any multiplier then 0 else 1
  | .agen => 3
  | .node => if nodeMode c.nodeWord < 2 then (if nodeAF c.nodeWord then 5 else 4) else 6

def classEnergy (k : Nat) : Nat :=
  match k with
  | 0 => 58
  | 1 => 34
  | 2 => 30
  | 3 => 26
  | 4 => 204
  | 5 => 296
  | _ => 18

/-- R316, R317: the charge at an operating point, to the nearest pJ. -/
def energyAt (k p : Nat) : Nat :=
  let f := match p with
    | 0 => 100
    | 1 => 82
    | 2 => 64
    | _ => 0
  (classEnergy k * f + 50) / 100

/-- R62, R316: whether the region of act `id` grants a token to an element of tile `t`. -/
def State.hasPower (s : State) (id : Nat) (t : TileId) : Bool :=
  decide (0 < (s.act (s.act id).regionRoot).tokens) && s.ticks t

/-- R62: one power token taken. -/
def State.takePower (s : State) (id : Nat) : State :=
  s.updAct (s.act id).regionRoot fun a => { a with tokens := a.tokens - 1 }

/-- R319, R379: a firing refused for want of a token, which is not a throttle event in a quadrant at point 3. -/
def State.refuse (s : State) (id : Nat) (t : TileId) : State :=
  if s.point t = 3 then s
  else (s.updAct (s.act id).regionRoot fun a => { a with refused := a.refused + 1, refusing := true }).updAct id fun a =>
    { a with refusing := true }

/-! ## Scene slots (R256, R257) -/

/-- R237: a slot of an act's region changed. -/
def Act.updSlot (a : Act) (k : Nat) (f : SceneSlot → SceneSlot) : Act :=
  if h : k < 4 then a.updRegion fun r => { r with slots := r.slots.set k (f r.slots[k]) } else a

def Act.slot (a : Act) (k : Nat) : SceneSlot :=
  if h : k < 4 then a.region.slots[k] else { st := .empty, image := 0, ends := 0, error := none, job := none }

/-- R257: every tile of the region has released a scene. -/
def State.released (s : State) (id scene : Nat) : Bool :=
  let a := s.act id
  (s.ownTiles id).all fun t => !s.holdsScene a t scene

/-- R256: slots whose scene every tile has released leave RETIRING: for LOADING when a load has begun, and
otherwise for LOADED. -/
def State.settle (s : State) (id : Nat) : State :=
  (List.range 4).foldl (fun s k =>
    let sl := (s.act id).slot k
    if sl.st = .retiring && s.released id k then
      s.updAct id fun a => a.updSlot k fun sl => { sl with st := if sl.job.isSome then .loading else .loaded }
    else s) s

/-! ## Markers passing elements (R64) -/

/-- An element of a tile has passed, or as a sink consumed, a marker: the lists that await it. -/
def Act.passed (a : Act) (t : TileId) (e : Element) (kind scene : Nat) (num : Byte) : Act :=
  let drop (l : List (TileId × Element)) : List (TileId × Element) := l.filter (· != (t, e))
  let hit (w : EndWait) : Bool := kind != 2 && w.num == some num && w.tag == scene
  -- R212: the read side of an address generator passes a marker as a source.
  let ends := a.ends.map fun w => if hit w then
    { w with elems := if e = .agen then w.elems else drop w.elems, sinks := drop w.sinks } else w
  let done := ends.filter fun w => w.sinks == [] && w.counts &&
    a.ends.any fun v => v.scene == w.scene && v.num == w.num && v.sinks != []
  let a := { a with ends := ends.filter fun w => w.elems != [] || w.sinks != [] }
  let a := done.foldl (fun a w => a.updSlot w.scene fun sl => { sl with ends := sl.ends - 1 }) a
  let run (m : Option MarkerRun) (k : Nat) : Option MarkerRun := m.map fun r =>
    if kind == k && r.num == num then { r with sinks := drop r.sinks } else r
  { a with curtain := run a.curtain 1, cutRun := run a.cutRun 2 }

/-- R64, R241: the sources of a tile pass a marker once they have placed it on every destination in the region. -/
def State.sourcesPass (s : State) (id : Nat) (t : TileId) : State :=
  let x := s.tile t
  let held (w : EndWait) (e : Element) (n : Byte) : Bool := match s.cfg t w.tag with
    | none => false
    | some c => (e != .agen && c.inputsOf e != []) || x.outq.any fun p =>
        p.tok.mark && p.tok.arg == n && p.scene == w.tag && (c.outputsOf e).contains p.out
  let ends := (s.act id).ends.map fun w => match w.num with
    | some n => { w with elems := w.elems.filter fun p => p.1 != t || held w p.2 n }
    | none => w
  s.updAct id fun a => { a with ends := ends.filter fun w => w.elems != [] || w.sinks != [] }

/-- R257: the sources of every region that waits for an end to pass, as far as they have placed their curtains. -/
def State.passSources (s : State) : State :=
  (s.acts.filter fun p => p.2.ends.any (·.num.isSome)).foldl (fun s p =>
    ((s.ownTiles p.1).foldl (fun s t => s.sourcesPass p.1 t) s).settle p.1) s

/-- R164, R188: state of one scene of a pipeline after it has consumed a scene-end curtain. -/
def SceneSt.afterCurtain (x : SceneSt) (own : Bool) : SceneSt :=
  { x with f := 0, turn := 0, ended := false, latches := if own then List.replicate 4 Latch.zero else x.latches }

/-- R223: the positions of the commands that the address generator of a tile performs. [log 52 DEDUCED] -/
def State.positions (s : State) (t : TileId) : List CmdPos :=
  if t.tile < 256 then []
  else s.eng.queues.filterMap fun p =>
    if p.1 == .port t.die (t.tile - 256) || p.2.server == some (.agen t.die (t.tile - 256)) then
      let opc := match p.2.entries with
        | e :: _ => cmdOpc e.cmd
        | [] => 0
      some { q := p.1, fin := p.2.fin, active := if [1, 2, 3, 4, 5, 6, 0x38].contains opc then p.2.active else none,
             rd := opc == 1 || opc == 2 || opc == 5 || opc == 0x38, bcast := p.2.bcast }
    else none

/-- R373: the snapshot that an element takes as a mark passes; each copies its own part of the tile's state. -/
def snapshot (x : Tile) (pos : List CmdPos) (e : Element) : Tile :=
  let base := x.shadowNew.getD (x.shadow.getD ElemSt.zero)
  match e with
  | .pipe => { x with shadowNew := some { base with scenes := x.st.scenes } }
  | .node => { x with shadowNew := some { base with node := x.st.node } }
  | .agen => { x with shadowNew := some { base with pos := pos } }

/-- R212, R223: the position of a queue as a mark reaches the write side: a write command takes its position now, and
a read command keeps the one of the mark's insertion. -/
def CmdPos.atSink (old new : CmdPos) : CmdPos :=
  if new.active.isSome && !new.rd then new
  else if old.fin = new.fin || (old.active.isSome && old.rd) then old
  else { new with active := none }

/-- R223: the snapshot that the write side of an address generator takes as a mark reaches it. -/
def snapshotSink (x : Tile) (pos : List CmdPos) : Tile :=
  match x.shadowNew with
  | none => snapshot x pos .agen
  | some sh =>
    let merged := pos.map fun n => match sh.pos.find? fun o => o.q == n.q with
      | some o => o.atSink n
      | none => n
    { x with shadowNew := some { sh with pos := merged } }

/-- R64 step 4: the local action of a marker. -/
def localAction (x : Tile) (pos : List CmdPos) (e : Element) (kind scene : Nat) : Tile :=
  match kind with
  | 2 => if e = .agen then snapshotSink x pos else snapshot x pos e
  | 3 =>
    match e with
    | .pipe =>
      let sc := (List.range 4).map fun k => ((x.st.scenes[k]?).getD SceneSt.zero).afterCurtain (k == scene)
      { x with st := { x.st with scenes := sc } }
    | .node => x
    | .agen => x
  | _ => x

end Sys2Proof.Machine
end

