-- ==== Sys2Proof/Machine/Budget.lean ====
section
/-! DEFINITION. The token tree's sums: what a region's elements can draw, floors, budgets and token counts (R318,
R368, R369, R410), the declared rate and the matrix cap of a region, and what an interval counts (R319 to R322). -/
namespace Sys2Proof.Machine

/-! ## What a region can fire -/

/-- The acts that launched the regions, with their regions: those that stand, and those whose spawned acts do. -/
def State.regionRoots (s : State) : List (Nat × Act) :=
  s.acts.filter fun p => p.2.life != .free && p.2.root.isNone && (p.2.present || s.acts.any fun q => q.2.present && q.2.root == some p.1)

/-- R318: the scenes of a tile that stand in a slot that is not EMPTY. -/
def State.liveScenes (s : State) (t : TileId) : List TileCfg :=
  match s.ownerOf t with
  | none => []
  | some id => (List.range 4).filterMap fun k => if ((s.act id).slot k).st = .empty then none else s.cfg t k

/-- R318: the largest class energy that an element of a tile can fire at its quadrant's point; `none` where it exists in
no live scene. -/
def State.elemEnergy (s : State) (t : TileId) (e : Element) : Option Nat :=
  let es := ((s.liveScenes t).filter fun c => c.has e).map fun c => energyAt (c.classOf e) (s.point t)
  if es = [] then none else some (es.foldl Nat.max 0)

/-- The elements of a region that can fire, with their energy and their cycles in an interval. -/
def State.drawers (s : State) (id : Nat) : List (Nat × Nat) :=
  (s.act id).region.tiles.flatMap fun t => ([.pipe, .node, .agen] : List Element).filterMap fun e =>
    (s.elemEnergy t e).map fun n => (n, pointCycles (s.point t))

/-- R318: c_r, 0 for a region that has none. -/
def State.regionEnergy (s : State) (id : Nat) : Nat := (s.drawers id).foldl (fun m p => Nat.max m p.1) 0

/-- R318: the full demand of a region, in pJ an interval. -/
def State.fullDemand (s : State) (id : Nat) : Nat :=
  s.regionEnergy id * ((s.drawers id).foldl (fun n p => n + p.2) 0)

/-- R1, R410: what the package draws whatever it does, in pJ an interval. -/
def idleEnergy : Nat := 90000000

/-! ## Floors (R368, R369, R411) -/

/-- R368: whether a context has an active floor. -/
def State.floorActive (s : State) (c : Nat) : Bool := (s.ctx c).floorSince.isSome

/-- R368, R411: the contexts whose floor counts: active, not suspended, and below no active floor. -/
def State.countedFloors (s : State) : List Ctx :=
  (s.ctxs.filter fun p => p.2.floorSince.isSome && !(s.ctl.power.suspended.contains p.1)
    && !((s.ancestors p.1).any s.floorActive)).map (·.2)

/-- R368: the floor sum in mW. -/
def State.floorSum (s : State) : Nat := (s.countedFloors.map (·.floor)).foldl (· + ·) 0

/-- R369: what the floor of its context guarantees a region in an interval, in pJ. -/
def State.floorShare (s : State) (id : Nat) : Nat :=
  let c := (s.act id).ctx
  if !(s.floorActive c) || s.ctl.power.suspended.contains c then 0
  else
    let all := ((s.regionRoots.filter fun p => p.2.ctx == c).map fun p => p.2.region.tiles.length).foldl (· + ·) 0
    1000 * (s.ctx c).floor * (s.act id).region.tiles.length / all

/-- R412: the factor of a thermal level. -/
def thermalFactor (level : Nat) : Nat :=
  match level with
  | 0 => 256
  | 1 => 240
  | 2 => 192
  | _ => 64

/-- R412: a partition's share of a stack at a thermal level. -/
def Partition.scaleShare (p : Partition) (stack level : Nat) : Partition :=
  { p with scaled := assocSet stack (tally stack p.shares * thermalFactor level / 256) p.scaled }

/-! ## Token counts (R318) -/

/-- R410: what the budgets of an interval may come to, in pJ: 850 W less the idle draw, and what the cap leaves of any 10 ms, after the
draws of the 9999 intervals before it. [log 60 DESIGN CHOICE] -/
def State.budgetLimit (s : State) : Nat :=
  Nat.min 850000000 (10000 * 1000 * s.ctl.power.cap - s.ctl.power.draws.foldl (· + ·) 0) - idleEnergy

/-- R318, R410: whether the full demands of all regions fit within what the cap allows beside the idle draw. -/
def State.demandsFit (s : State) : Bool := decide ((s.regionRoots.map fun p => s.fullDemand p.1).foldl (· + ·) 0 ≤ s.budgetLimit)

/-- R318: the least budget of a region. -/
def State.leastBudget (s : State) (id : Nat) : Nat :=
  Nat.max (s.floorShare id) (if s.demandsFit then s.fullDemand id else 0)

/-- R410: what the regions may draw by their present counts, in pJ. -/
def State.budgetsGiven (s : State) : Nat :=
  (s.regionRoots.map fun p => p.2.granted * s.regionEnergy p.1).foldl (· + ·) 0

/-- R410: what the package has drawn in an interval, by the tokens taken, in pJ. [log 60 DESIGN CHOICE] -/
def State.intervalDraw (s : State) : Nat :=
  idleEnergy + (s.regionRoots.map fun p => (p.2.granted - p.2.tokens) * s.regionEnergy p.1).foldl (· + ·) 0

/-- R318: N_r for a budget in pJ. [log 59 DEDUCED] -/
def State.tokensFor (s : State) (id budget : Nat) : Nat :=
  let c := s.regionEnergy id
  if c = 0 then 0 else Nat.min (budget / c) (2 ^ 32 - 1)

/-! ## The matrix cap (R322) -/

/-- R321: whether a window holds an interval. -/
def CueWin.holds (w : CueWin) (k : Nat) : Bool :=
  match w.start with
  | some n => decide (n ≤ k) && decide (k < n + w.len)
  | none => false

/-- R322, R324: the declared rate of a region in an interval, in 255ths; the cues of acts that a revocation or a cancel has ended in it
count to its end. -/
def State.declared (s : State) (root k : Nat) : Nat :=
  let left := if k = s.interval then (s.act root).cueRest else 0
  let one (a : Act) : Nat := ((a.cues.filter fun w => w.holds k).map fun w => w.intensity.toNat).foldl (· + ·) 0
  Nat.min 255 (left + ((s.acts.filter fun p => p.2.present && (s.act p.1).regionRoot == root).map fun p => one p.2).foldl (· + ·) 0)

/-- R322: the M-tiles of a region whose held scenes hold a matrix node word. -/
def State.nodeTiles (s : State) (root : Nat) : List TileId :=
  (s.act root).region.tiles.filter fun t => isMTile t.tile && match s.ownerOf t with
    | none => false
    | some id => (List.range 4).any fun sc => s.holdsScene (s.act id) t sc && match s.cfg t sc with
      | some c => c.node
      | none => false

/-- R322: the node cycles of an interval. -/
def State.nodeCycles (s : State) (root : Nat) : Nat :=
  ((s.nodeTiles root).map fun t => pointCycles (s.point t)).foldl (· + ·) 0

/-- R322: M_cap and M_decl at a declared rate in 255ths. -/
def matrixCap (d cycles : Nat) : Nat := (16 * d + 255) * cycles / (16 * 255)
def matrixDecl (d cycles : Nat) : Nat := d * cycles / 255

/-- R322: one more matrix firing of classes 4 and 5 stays within the cap of the present interval. -/
def State.underCap (s : State) (id : Nat) : Bool :=
  let root := (s.act id).regionRoot
  decide ((s.act root).mxFired < matrixCap (s.declared root s.interval) (s.nodeCycles root))

/-! ## Budgets (R318, R321, R410) -/

/-- R322, R323: the matrix power of a region in pJ an interval at full rate. -/
def State.matrixPower (s : State) (root : Nat) : Nat :=
  ((s.nodeTiles root).map fun t =>
    let wide := match s.ownerOf t with
      | none => false
      | some id => (List.range 4).any fun sc => s.holdsScene (s.act id) t sc && match s.cfg t sc with
        | some c => c.node && decide (nodeMode c.nodeWord < 2) && nodeAF c.nodeWord
        | none => false
    (if wide then 296 else 204) * pointCycles (s.point t)).foldl (· + ·) 0

/-- R318, R321: the declared matrix energy of a region in the present interval, in pJ. -/
def State.declaredEnergy (s : State) (root : Nat) : Nat := s.declared root s.interval * s.matrixPower root / 255

/-- R318, R321: the budget that a region has at least. -/
def State.lowestBudget (s : State) (root : Nat) : Nat := Nat.max (s.leastBudget root) (s.declaredEnergy root)

/-- R318, R410: a region whose gates are about to open is given its N_r. What the power core adds to the lowest budget, within its limits,
is a free value. [log 60 DESIGN CHOICE] -/
def State.grantTokens (s : State) (id : Nat) : State :=
  let root := (s.act id).regionRoot
  let (x, s) := s.free
  let room := s.budgetLimit - s.budgetsGiven
  let low := Nat.min room (s.lowestBudget root)
  let n := s.tokensFor root (low + x % (room - low + 1))
  s.updAct root fun a => { a with tokens := n, granted := n }

/-! ## What an interval counts (R319, R322) -/

/-- R319: the acts bound to a region. -/
def State.boundTo (s : State) (root : Nat) : List Nat :=
  (s.acts.filter fun p => p.2.life != .free && p.2.regionRoot == root).map (·.1)

/-- R319: one throttle event for a region in which a firing was refused. -/
def State.throttled (s : State) (root : Nat) : State :=
  let a := s.act root
  if a.refused = 0 then s
  else
    let s := (s.boundTo root).foldl (fun s id => s.updAct id (·.updRegs Regs.throttle)) s
    (s.count a.ctx 0x20 1).traceAct 0x0A root 0 a.refused

/-- R322: the exact energy of `over` firings of the mean energy `pj / fired`, added. -/
def Regs.undeclare (r : Regs) (excess pj fired : Nat) : Regs :=
  { r with undeclPj := r.undeclPj * fired + excess * pj * r.undeclDen, undeclDen := r.undeclDen * fired }

/-- R322: the matrix firings of an interval beyond the declared rate, charged; for a region that has been switched out in it, that rate is
the one it had. -/
def State.chargeUndeclared (s : State) (root : Nat) : State :=
  let a := s.act root
  let excess := a.mxFired - Nat.max a.mxDecl (matrixDecl (s.declared root s.interval) (s.nodeCycles root))
  if excess = 0 then s
  else
    let nj (r : Regs) : Nat := r.undeclPj / (1000 * r.undeclDen)
    let r := a.regs.undeclare excess a.mxEnergy a.mxFired
    (s.updAct root fun x => { x with regs := r }).count a.ctx 0x21 (nj r - nj a.regs)

/-- The counts of a region's interval begin again. -/
def State.newInterval (s : State) (root : Nat) : State :=
  s.updAct root fun a => { a with refused := 0, mxFired := 0, mxEnergy := 0, mxDecl := 0, cueRest := 0 }

/-- R319, R322: the interval that ends, for a region with refusals or matrix firings in it. -/
def State.endInterval (s : State) (root : Nat) : State := ((s.throttled root).chargeUndeclared root).newInterval root

/-- R319, R322: an act is about to be freed: what its region has counted in the interval is recorded. -/
def State.lastInterval (s : State) (id : Nat) : State := if (s.act id).root.isNone then s.endInterval id else s

/-- R324: an act that a revocation or a cancel ends: the running window of its cues counts to the end of the interval. -/
def State.leaveCues (s : State) (id : Nat) : State :=
  let n := (((s.act id).cues.filter fun w => w.holds s.interval).map fun w => w.intensity.toNat).foldl (· + ·) 0
  (s.updAct id fun a => { a with cues := [] }).updAct (s.act id).regionRoot fun a => { a with cueRest := a.cueRest + n }

end Sys2Proof.Machine
end

