-- ==== Sys2Proof/Machine/Blocks.lean ====
section
/-! DEFINITION. Scene blocks and staging images as bytes: their layout (R95 to R98, R250), the CRC (R99) and the
checks of admission (R89, R91, R100, R166, R171, R184, R239, R242, R254). -/
namespace Sys2Proof.Machine

/-! ## The CRC of R99 -/

/-- R99: one bit of the reflected CRC-32C. -/
def crcBit (c : W32) : W32 := if c.getLsbD 0 then (c >>> 1) ^^^ 0x82F63B78 else c >>> 1

/-- R99: one byte. -/
def crcByte (c : W32) (b : Byte) : W32 :=
  crcBit (crcBit (crcBit (crcBit (crcBit (crcBit (crcBit (crcBit (c ^^^ b.zeroExtend 32))))))))

/-- R99: CRC-32C of a list of bytes. -/
def crc32c (bs : List Byte) : W32 := ~~~(bs.foldl crcByte 0xFFFFFFFF)

/-! ## The layout of a block (R95, R96) -/

/-- A double at a physical address. -/
def Mem.dbl (m : Mem) (a : Nat) : Dbl := BitVec.ofNat 64 (m.readN a 8)
/-- A word at a physical address. -/
def Mem.word (m : Mem) (a : Nat) : W32 := BitVec.ofNat 32 (m.readN a 4)

/-- R96: the fields of a block header. -/
def hdRole (h : Dbl) : Nat := bits h 44 4
def hdScn (h : Dbl) : Nat := bits h 42 2
def hdL (h : Dbl) : Bool := h.getLsbD 41
def hdM (h : Dbl) : Bool := h.getLsbD 40
def hdTile (h : Dbl) : Nat := bits h 20 12

/-- R95: the length of a block. -/
def blockLen (h : Dbl) : Nat := if hdL h then 0x1F8 else 0x0F8

/-- R95: the words of the block at a physical address. A pass-through or idle tile has no element (R238). -/
def blockCfg (m : Mem) (a : Nat) : TileCfg :=
  let h := m.dbl a
  { role := hdRole h, node := hdM h && (hdRole h == 1 || hdRole h == 2),
    stages := (List.range 6).map fun k => m.dbl (a + 8 + 8 * k),
    nodeWord := m.dbl (a + 0x38),
    consts := (List.range 8).map fun k => m.word (a + 0x40 + 4 * k),
    ports := (List.range 8).map fun k => m.dbl (a + 0x60 + 8 * k),
    routes := (List.range 20).map fun k => m.word (a + 0xA0 + 4 * k),
    init := if hdL h then (List.range 4).map fun j => lanesOf fun i => m.word (a + 0xF0 + 64 * j + 4 * i)
            else List.replicate 4 Lanes.zero }

/-- R255: the words of a tile of role 0. -/
def idleCfg : TileCfg :=
  { role := 0, node := false, stages := List.replicate 6 0, nodeWord := 0, consts := List.replicate 8 0,
    ports := List.replicate 8 0, routes := List.replicate 20 0, init := List.replicate 4 Lanes.zero }

/-- R99: whether the CRC of the block at `a` holds. -/
def crcOk (m : Mem) (a : Nat) : Bool :=
  let n := blockLen (m.dbl a) - 8
  crc32c (m.readList a n) == m.word (a + n)

/-! ## Stage words (R89, R171, R183 to R192) -/

/-- R85, R171: the formats that an opcode accepts; none for a reserved opcode. -/
def stageFormats (opc : Nat) : Option (List Nat) :=
  if 0x10 ≤ opc && opc ≤ 0x20 then some [0, 1, 2, 3, 4, 5]
  else if 0x30 ≤ opc && opc ≤ 0x39 then some [6]
  else if 0x50 ≤ opc && opc ≤ 0x52 then some [7]
  else match opc with
  | 0x00 | 0x01 | 0x88 | 0x89 | 0x8A | 0x90 | 0x91 | 0x92 | 0x93 | 0xA0 => some (List.range 13)
  | 0x60 => some [0, 1, 2, 3, 4, 5, 6, 7, 8, 11, 12]
  | 0x61 | 0x62 => some [9, 10]
  | 0x70 | 0x71 | 0x72 => some [8]
  | 0x80 | 0x81 | 0x82 => some [0, 1, 2, 3, 4, 5, 6, 7]
  | 0x94 => some [0, 1]
  | 0x95 => some [1]
  | 0xA1 => some [0]
  | 0xA8 | 0xA9 => some [2, 3, 4, 5, 7, 9, 10]
  | _ => none

/-- R88: the precision and reading fields of CVT. -/
def cvtImmOk (w : Dbl) : Bool :=
  let src := immF w 0 4
  let b8 (d : Nat) : Bool := d == 11 || d == 12
  let prec (d p : Nat) : Bool := if b8 d then p != 0 else p == 0
  [0, 1, 2, 3, 4, 5, 6, 7, 8, 11, 12].contains src && !w.getLsbD 7 && !w.getLsbD 11 && immF w 14 18 == 0
    && prec src (immF w 4 3) && prec (stDt w) (immF w 8 3)
    && (if b8 src || b8 (stDt w) then immF w 12 2 != 3 else immF w 12 2 == 0)

/-- R88, R171: whether imm32 holds what its opcode allows. -/
def immOk (w : Dbl) : Bool :=
  let v := stImm w
  match stOpc w with
  | 0x10 | 0x11 | 0x12 | 0x13 | 0x16 | 0x17 | 0xA1 => v < 2
  | 0x1F | 0x38 => v < 6
  | 0x60 => cvtImmOk w
  | 0x62 => v < 8 && (stDt w == 9 || v / 2 < 2)
  | 0x80 | 0x81 | 0x82 => v < 4
  | 0x89 => v / 256 == 0 && v / 4 % 4 == 0
  | 0x8A | 0x93 => v < 16
  | 0x01 => 1 ≤ v && v < 65536
  | 0x90 => v % 65536 != 0 && v / 65536 != 0
  | 0x91 => v < 2 ^ 18 && v % 65536 != 0 && immF w 16 2 + 8 != stD w
  | 0x94 => v < 65536
  | 0x95 => v ≤ 4
  | 0xA0 => v < 2 ^ 17 && v % 65536 != 0
  | 0xA8 => 1 ≤ v && v ≤ 32
  | 0xA9 => v < 128 && 1 ≤ v % 64 && v % 64 ≤ 32
  | _ => v == 0

/-- R83, R171: whether the source fields are ones that the operation allows. -/
def sourcesOk (w : Dbl) : Bool :=
  (usesB w || stB w == 0) && (usesC w || stC w == 0) &&
  match stOpc w with
  | 0x01 => stA w < 4
  | 0x90 => stA w < 4 && stB w < 4 && stA w != stB w
  | 0x94 => 8 ≤ stA w && 8 ≤ stB w
  | 0xA1 => stA w < 4
  | 0x62 => !w.getLsbD 0 || stA w < 4
  | _ => true

/-- R83, R171: whether the destination is one that the operation allows in stage `k`. -/
def destOk (w : Dbl) (k : Nat) : Bool :=
  let d := stD w
  (d < 5 || (8 ≤ d && d < 12)) && !(k == 5 && d == 0) &&
  match stOpc w with
  | 0x91 | 0x92 | 0xA0 => 8 ≤ d
  | 0x93 => d == 8
  | _ => true

/-- R87, R183: whether the operation may stand in stage `k`. -/
def stageAllowed (w : Dbl) (k : Nat) : Bool :=
  (!multiplier w || k == 1 || k == 3) && (!([0x01, 0x90, 0x94].contains (stOpc w)) || k == 0)

/-- R89: the load error of the word of stage `k`. -/
def stageError (w : Dbl) (k : Nat) : Option Byte :=
  if w = 0 then none
  else match stageFormats (stOpc w) with
  | none => some 0x32
  | some fs =>
    if fs.contains (stDt w) && stPS w ≤ 5 && !(stPS w == 0 && stPI w) && sourcesOk w && destOk w k && immOk w
      && stageAllowed w k then none else some 0x30

/-- The first error of a list of stage words. -/
def stagesError : List Dbl → Nat → Option Byte
  | [], _ => none
  | w :: ws, k => match stageError w k with
    | some e => some e
    | none => stagesError ws (k + 1)

/-! ## The matrix node word (R91) -/

/-- R91: the fields that the mode of a node word uses hold values it allows, and every other bit is zero. -/
def nodeFieldsOk (w : Dbl) : Bool :=
  let mode := nodeMode w
  let mm := mode < 2
  (w &&& 0x7FFFFFFFFF == 0)
    && (if mm then bits w 58 2 < 2 && !(nodeAF w && nodeBS w % 2 == 1) else bits w 58 2 == 0 && nodeBS w == 0)
    && (if mode == 3 then nodeDF w != 3 else nodeDF w == 0)
    && (if mode == 1 then nodeMP w != nodeAP w && 1 ≤ nodeSPN w && nodeSPN w ≤ 32 else nodeMP w == 0 && nodeSPN w == 0)
    && (if mode == 3 || mode == 4 then true else nodeOP w == 0)
    && (mode == 4 || !w.getLsbD 39)

/-- R91, R100: the load error of the node word of a block with header `h`. [log 42 DEDUCED] -/
def nodeError (h w : Dbl) : Option Byte :=
  if w ≠ 0 && !isMTile (hdTile h) then some 0x33
  else if w ≠ 0 && !hdM h then some 0x30
  else if 5 ≤ nodeMode w then some 0x32
  else if hdM h && !nodeFieldsOk w then some 0x30
  else none

/-! ## The header, the ports and the routes (R96 to R98, R100) -/

/-- R96, R100: a header in order. -/
def headerOk (h : Dbl) : Bool :=
  bits h 56 8 == 0xA8 && bits h 48 8 == 1 && hdRole h ≤ 4 && hdTile h < 320 && bits h 32 8 == 0 && bits h 0 20 == 0

/-- R97: a port descriptor in order; `i` counts in0 to in3, then out0 to out3. -/
def portOk (p : Dbl) (i : Nat) : Bool :=
  bits p 0 58 == 0 && (p.getLsbD 63 || p == 0) && (if i < 4 then !p.getLsbD 58 else bits p 59 4 == 0)

/-- R98: a routing word in order. -/
def routeOk (c : TileCfg) (w : W32) : Bool :=
  (if w.getLsbD 31 then w.extractLsb' 0 16 == 0 else w == 0)
    && (!(w.getLsbD 31 && w.getLsbD 26) || c.enabled (w.extractLsb' 16 2).toNat)

/-- R100: no two entries name one local input, and no direction carries more than four circuits. -/
def routesOk (c : TileCfg) : Bool :=
  c.routes.all (routeOk c)
    && (List.range 4).all (fun i => c.routes.countP (fun w => w.getLsbD 31 && w.getLsbD 26 && (w.extractLsb' 16 2).toNat == i) ≤ 1)
    && (List.range 4).all fun d => c.routes.countP (fun w => w.getLsbD 31 && w.getLsbD (30 - d)) ≤ 4

/-- R100, R238: the load error of the header, ports, routes and role of the block at `a`. [log 42 DEDUCED] -/
def headerError (m : Mem) (a : Nat) : Option Byte :=
  let h := m.dbl a
  let c := blockCfg m a
  if !(headerOk h && (List.range 8).all (fun i => portOk ((c.ports[i]?).getD 0) i) && routesOk c
      && m.word (a + blockLen h - 4) == 0) then some 0x30
  else if (hdRole h == 3 && hdTile h < 256) || ((hdRole h == 1 || hdRole h == 2) && 256 ≤ hdTile h)
      || (hdM h && !isMTile (hdTile h)) then some 0x33
  else none

/-! ## The words of one tile together (R166, R184, R239) -/

/-- R193: whether a node word has a one-shot mode. -/
def oneShotWord (w : Dbl) : Bool := 2 ≤ nodeMode w && nodeMode w ≤ 4

/-- R193: the inputs that a one-shot scene enables and does not name: each is the MP of an MM.SP word of another slot. -/
def TileCfg.lent (c : TileCfg) : List Nat :=
  if c.node && oneShotWord c.nodeWord then
    (List.range 4).filter fun i => c.enabled i && !(c.inputsOf .node).contains i && !(c.has .pipe && (pipeInputs c.stages).contains i)
  else []

/-- R166: no port belongs to both elements, and the enabled ports are exactly the named ones, with one that a one-shot scene may have
from another slot (R193). -/
def namesOk (c : TileCfg) : Bool :=
  let pin := if c.has .pipe then pipeInputs c.stages else []
  let pout := if c.has .pipe then pipeOutputs c.stages else []
  let nin := if c.node then c.inputsOf .node else []
  let nin := nin ++ c.lent.take 1
  let nout := if c.node then c.outputsOf .node else []
  c.role == 3 || (List.range 4).all fun i =>
    !(pin.contains i && nin.contains i) && !(pout.contains i && nout.contains i)
      && c.enabled i == (pin.contains i || nin.contains i) && c.enabled (4 + i) == (pout.contains i || nout.contains i)

/-- The words of a scene that have an opcode among `ops`. -/
def wordsOf (ws : List Dbl) (ops : List Nat) : List Dbl := ws.filter fun w => w != 0 && ops.contains (stOpc w)

/-- R184: where token operations may stand. FILTER writes no output, and SCLI writes none of its lanes. -/
def tokenOpsOk (ws : List Dbl) : Bool :=
  let d (w : Dbl) : List Nat := if stOpc w = 0x93 then wordOuts w else [stD w - 8]
  decide ((wordsOf ws [0x01, 0x90, 0x94]).length ≤ 1)
    && ((wordsOf ws [0x94]) == [] || pipeInputs ws == [])
    && (List.range 4).all fun o =>
      decide ((wordsOf ws [0x91, 0x92, 0x93, 0xA0]).countP (fun w => (d w).contains o) ≤ 1)
        && ((wordsOf ws [0x91, 0x93]).all (fun w => !(wordOuts w).contains o)
          || decide (ws.countP (fun w => !([0x92, 0xA0].contains (stOpc w)) && (wordOuts w).contains o) ≤ 1))

/-- R239: what a role forbids its block. -/
def roleError (c : TileCfg) (h : Dbl) : Option Byte :=
  let blank := c.stages.all (· == 0) && c.nodeWord == 0 && c.consts.all (· == 0)
  match c.role with
  | 0 => if blank && c.ports.all (!·.getLsbD 63) && c.routes.all (!·.getLsbD 31) then none else some 0x30
  | 4 => if blank && c.ports.all (!·.getLsbD 63) then none else some 0x30
  | 3 => if blank && !hdL h then none else some 0x30
  | 2 => if c.stages.any fun w => w != 0 && (multiplier w || [0x60, 0x61, 0x62].contains (stOpc w)) then some 0x33 else none
  | _ => none

/-- R254 step 3: the load error of the words of the block at `a`. -/
def wordsError (m : Mem) (a : Nat) : Option Byte :=
  let c := blockCfg m a
  let h := m.dbl a
  match stagesError c.stages 0 with
  | some e => some e
  | none => match nodeError h c.nodeWord with
    | some e => some e
    | none => if namesOk c && tokenOpsOk c.stages then roleError c h else some 0x30

/-! ## The staging image (R250, R254) -/

/-- R250: the fields of an image header's first double. -/
def imDie (h : Dbl) : Nat := bits h 44 4
def imNblk (h : Dbl) : Nat := bits h 16 12

/-- The physical addresses of the blocks of an image, in order. -/
def blockAddrs (m : Mem) : Nat → Nat → List Nat
  | 0, _ => []
  | n + 1, a => a :: blockAddrs m n (a + blockLen (m.dbl a))

/-- R250: the physical rectangle of an image. -/
def imRegion (h : Dbl) : RegionSt :=
  { RegionSt.zero with die := imDie h, x0 := bits h 40 4, y0 := bits h 36 4, w := bits h 32 4 + 1, h := bits h 28 4 + 1 }

/-- R250, R254 step 2: an image header in order, for a part whose repair map identifier is `rmap`. -/
def imageHeaderOk (m : Mem) (a rmap : Nat) : Bool :=
  let h := m.dbl a
  let r := imRegion h
  bits h 56 8 == 0xA9 && bits h 48 8 == 1 && imDie h < 8 && bits h 0 16 == 0 && 1 ≤ imNblk h && imNblk h ≤ 1280
    && r.x0 + r.w ≤ 16 && r.y0 + r.h ≤ 16 && m.readN (a + 0x10) 8 == rmap
    && (List.range 5).all (fun k => m.dbl (a + 0x18 + 8 * k) == 0)
    && ((blockAddrs m (imNblk h) (a + 64)).map fun b => blockLen (m.dbl b)).foldl (· + ·) 0 == m.readN (a + 8) 8

/-- R254 step 3: the key that orders the blocks of an image. -/
def blockKey (h : Dbl) : Nat := hdScn h * 4096 + hdTile h

/-- R193: the MP inputs that the blocks of a tile name. -/
def mpsOf (m : Mem) (as : List Nat) (tile : Nat) : List Nat :=
  as.filterMap fun a =>
    let c := blockCfg m a
    if hdTile (m.dbl a) = tile && c.node && nodeMode c.nodeWord = 1 then some (nodeMP c.nodeWord) else none

/-- R116, R337: a load error with the tile and scene that it names, in [13:0]. -/
def atBlock (h : Dbl) (e : Byte) : Byte × Nat := (e, hdTile h + 4096 * hdScn h)

/-- R254 step 3: the blocks of an image checked in order, from the one at `a`, after a block of key `prev`. -/
def blocksError (m : Mem) (r : RegionSt) : List Nat → Option Nat → Option (Byte × Nat)
  | [], _ => none
  | a :: as, prev =>
    let h := m.dbl a
    if !crcOk m a then some (atBlock h 0x36)
    else match headerError m a with
    | some e => some (atBlock h e)
    | none =>
      if !(match prev with
          | some p => decide (p < blockKey h)
          | none => true) || !r.holds { die := r.die, tile := hdTile h } then some (atBlock h 0x30)
      else match wordsError m a with
      | some e => some (atBlock h e)
      | none => blocksError m r as (some (blockKey h))

/-! ## Whole scenes (R254 step 4) -/

/-- Where a branch of a circuit ends, followed through the blocks of one scene alone. -/
inductive SceneEnd where
  | input (tile i : Nat) (crosses : Bool)
  | outside
  | endless
deriving DecidableEq, Repr

/-- The hops after which a walk within one scene has met some routing entry twice. -/
def sceneFuel : Nat := 320 * 16 + 1

/-- The branches of a route within one scene of a rectangle. [log 43 DEDUCED] -/
def sceneFollow (r : RegionSt) (cfg : Nat → Option TileCfg) : Nat → Nat → W32 → Bool → List SceneEnd
  | 0, _, _, _ => [.endless]
  | n + 1, t, w, x =>
    if !w.getLsbD 31 then []
    else
      (if w.getLsbD 26 then [.input t (w.extractLsb' 16 2).toNat x] else []) ++
      (routeDirs w).flatMap fun (d, c) =>
        match neighbour { die := r.die, tile := t } d with
        | none => [.outside]
        | some (u, _) =>
          if !r.holds u then [.outside]
          else match cfg u.tile with
          | none => []
          | some k => sceneFollow r cfg n u.tile ((k.routes[4 * ((d + 2) % 4) + c]?).getD 0)
              (x || quadrant t != quadrant u.tile)

/-- The elements of one scene of an image. -/
def sceneElems (cs : List (Nat × TileCfg)) : List (Nat × Element) :=
  cs.flatMap fun p => ([.pipe, .node, .agen] : List Element).filterMap fun e => if p.2.has e then some (p.1, e) else none

/-- The branches that leave the outputs of an element. -/
def elemEnds (r : RegionSt) (cs : List (Nat × TileCfg)) (e : Nat × Element) : List (Nat × SceneEnd) :=
  match assoc? e.1 cs with
  | none => []
  | some c => (c.outputsOf e.2).flatMap fun o =>
      (sceneFollow r (assoc? · cs) sceneFuel e.1 ((c.routes[16 + o]?).getD 0) false).map fun x => (o, x)

/-- The elements that name an input of a tile. -/
def elemsAt (cs : List (Nat × TileCfg)) (p : Nat × Nat) : List (Nat × Element) :=
  (sceneElems cs).filter fun f => f.1 == p.1 && match assoc? p.1 cs with
    | some c => (c.inputsOf f.2).contains p.2
    | none => false

/-- The elements whose named inputs the branches of an element end at. -/
def elemNext (r : RegionSt) (cs : List (Nat × TileCfg)) (e : Nat × Element) : List (Nat × Element) :=
  (elemEnds r cs e).flatMap fun p => match p.2 with
    | .input t i _ => elemsAt cs (t, i)
    | _ => []

/-- R241: the elements that a circuit from outside the rectangle may reach first. -/
def entryElems (r : RegionSt) (cs : List (Nat × TileCfg)) : List (Nat × Element) :=
  cs.flatMap fun p => (List.range 4).flatMap fun d =>
    match neighbour { die := r.die, tile := p.1 } d with
    | none => []
    | some (u, _) =>
      if r.holds u then []
      else (List.range 4).flatMap fun c =>
        (sceneFollow r (assoc? · cs) sceneFuel p.1 ((p.2.routes[4 * d + c]?).getD 0) false).flatMap fun x => match x with
          | .input t i _ => elemsAt cs (t, i)
          | _ => []

/-- The nodes of a graph reached from a set in at most `n` rounds. -/
def closure {α : Type} [DecidableEq α] (next : α → List α) : Nat → List α → List α
  | 0, l => l
  | n + 1, l => closure next n ((l ++ l.flatMap next).eraseDups)

/-- R242, R212: the elements that lie on a cycle; an address generator's write side joins nothing. -/
def onCycle (next : Nat × Element → List (Nat × Element)) (n : Nat) (e : Nat × Element) : Bool :=
  e.2 != .agen && (closure next n (next e)).contains e

/-- What the script of an emitted image says of the channels of one scene: one that leaves it crosses a border with fewer than 4
slots (R68, R69), one that leaves it has no boundary node (R311), and the inputs at which channels enter it (R241). -/
structure SceneChannels where
  short : Bool
  bare : Bool
  entries : List (Nat × Nat)
deriving DecidableEq, Repr

/-- A staging image that software presents names no channel: a branch that leaves its rectangle reaches no consumer, and is admitted (R366,
R386, R388). -/
def noChannels : SceneChannels := { short := false, bare := false, entries := [] }

/-- R254 step 4: the load error of one scene of an image with the channels `ch`. [log 42 DEDUCED] -/
def sceneError (r : RegionSt) (cs : List (Nat × TileCfg)) (ch : SceneChannels) : Option Byte :=
  let els := sceneElems cs
  let ends := els.flatMap (elemEnds r cs)
  let next := fun e => if e.2 = .agen then [] else elemNext r cs e
  let start := (els.filter fun e => e.2 == .agen || match assoc? e.1 cs with
    | some c => c.inputsOf e.2 == []
    | none => false) ++ entryElems r cs ++ ch.entries.flatMap (elemsAt cs)
  if ends.any (·.2 == .endless) || els.any (onCycle next els.length) then some 0x31
  else if ch.short || ends.any fun p => match p.2 with
      | .input t i true => match assoc? t cs with
        | some c => decide (c.slotsOf i < 4)
        | none => false
      | _ => false then some 0x34
  else if ch.bare then some 0x35
  else
    let seen := closure next els.length (start ++ start.flatMap (elemNext r cs))
    if els.all fun e => seen.contains e then none else some 0x30

/-- R58: the first block of an image with which the slot counts of the circuits that end at some input of its tile pass 16. -/
def slotsError (m : Mem) : List Nat → List Nat → Option (Byte × Nat)
  | _, [] => none
  | done, a :: as =>
    let all := (a :: done).filter fun b => hdTile (m.dbl b) == hdTile (m.dbl a)
    let sum (i : Nat) : Nat := (all.map fun b => if (blockCfg m b).enabled i then (blockCfg m b).slotsOf i else 0).foldl (· + ·) 0
    if (List.range 4).any fun i => decide (16 < sum i) then some (atBlock (m.dbl a) 0x30) else slotsError m (a :: done) as

/-- The first error of a list. [log 42 DEDUCED] -/
def firstError : List (Option (Byte × Nat)) → Option (Byte × Nat)
  | [] => none
  | some e :: _ => some e
  | none :: l => firstError l

/-- R254 steps 2 to 4: the load error of the staging image at physical address `a`, with the tile and scene that it names: a
header names no tile, a block its own, and a whole scene none; `ch` gives the channels of a
scene. -/
def imageError (m : Mem) (a rmap : Nat) (ch : Nat → SceneChannels) : Option (Byte × Nat) :=
  if !imageHeaderOk m a rmap then some (0x30, 0xFFF)
  else
    let h := m.dbl a
    let as := blockAddrs m (imNblk h) (a + 64)
    let r := imRegion h
    match blocksError m r as none with
    | some e => some e
    | none => match slotsError m [] as with
    | some e => some e
    | none =>
      firstError ((List.range 4).map fun k =>
        (sceneError r ((as.filter fun b => hdScn (m.dbl b) == k).map fun b => (hdTile (m.dbl b), blockCfg m b)) (ch k)).map
          fun e => (e, 0xFFF + 4096 * k))

end Sys2Proof.Machine
end

