-- ==== Sys2Proof/Machine/Queues.lean ====
section
/-! DEFINITION. Command queues: placing, the checks at the head, stops, completion and the sequence record
(R94, R201 to R209, R233, R339 to R341). -/
namespace Sys2Proof.Machine

/-! ## Names of queues -/

/-- R92, R201: the queue that a PQ names for an act of context `ctx` on die `die`. -/
def queueNamed (s : State) (die ctx pq : Nat) : Option QueueId :=
  if pq < 64 then some (.port die pq)
  else if pq < 128 then some (.ctx (s.rootOf ctx) (pq - 64))
  else none

/-- R139: the act's region holds the port, or its context holds the queue, that a PQ names. -/
def pqGranted (s : State) (a : Act) (pq : Nat) : Bool :=
  if pq < 64 then a.region.holds { die := a.region.die, tile := 256 + pq }
  else if pq < 128 then (s.ctx a.ctx).qmask.getLsbD (pq - 64)
  else true

/-- R201: the server of a queue; a port queue is served by the address generator of its tile. -/
def State.serverOf (s : State) (q : QueueId) : Option Server :=
  match q with
  | .port die port => some (.agen die port)
  | .ctx _ _ => (s.queue q).server

/-- R339, R340: a context queue that no binding has made, or that a reset has released, reaches no server. -/
def State.bound (s : State) (q : QueueId) : Bool :=
  match q with
  | .port _ _ => true
  | .ctx _ _ => (s.queue q).server.isSome && !(s.queue q).dropped

/-- The die and tile of a server (R403); an engine of a die has no tile of its own. -/
def Server.place : Server → Nat × Nat
  | .agen die port => (die, 256 + port)
  | .copy die => (die, 0)
  | .coll die => (die, 0)

/-! ## Outstanding commands (R141, R233) -/

/-- Whether a command has been placed and has not completed. -/
def State.outstanding (s : State) (no : Nat) : Bool :=
  s.eng.queues.any fun p => p.2.entries.any fun e => e.no == no

/-- The queues of a top-level context that a mask names. -/
def State.maskQueues (s : State) (root : Nat) (m : Dbl) : List (QueueId × Queue) :=
  s.eng.queues.filter fun p => match p.1 with
    | .ctx c n => c == root && m.getLsbD n
    | .port _ _ => false

/-- R141: the commands for which the fences of an act hold a command to `q`. [log 27 DEDUCED] -/
def fenceJoins (a : Act) (q : QueueId) : List Nat :=
  match q with
  | .port _ _ => []
  | .ctx c n => (a.fences.filter fun f => f.root == c && f.mask.getLsbD n).flatMap (·.waits)

/-- R233: the commands placed in the queues that a QFENCE names. -/
def qfenceJoins (s : State) (q : QueueId) (cmd : Quad) : List Nat :=
  match q with
  | .port _ _ => []
  | .ctx c _ =>
    if cmdOpc cmd = 0x33 then
      ((s.maskQueues c (cmdOps cmd)).filter fun p => p.1 != q).flatMap fun p => p.2.entries.map (·.no)
    else []

/-- R233: as `qfenceJoins`, for a QFENCE in a port queue of an act of context `ctx`. -/
def portJoins (s : State) (q : QueueId) (ctx : Nat) (cmd : Quad) : List Nat :=
  match q with
  | .ctx _ _ => []
  | .port _ _ =>
    if cmdOpc cmd = 0x33 then
      (s.maskQueues (s.rootOf ctx) (cmdOps cmd)).flatMap fun p => p.2.entries.map (·.no)
    else []

/-- R206, R209: a command of act `id` for queue `q`, numbered, and the state that has used the number; one of a chain is still to be read. -/
def newEntry (s : State) (id ctx stamp : Nat) (cmd : Quad) (addr : Dbl) (chained : Bool) (q : QueueId) :
    QEntry × State :=
  ({ no := s.eng.serial, cmd := cmd, act := id, ctx := ctx, stamp := stamp, addr := addr, chained := chained,
     node := none, joins := fenceJoins (s.act id) q ++ qfenceJoins s q cmd ++ portJoins s q ctx cmd,
     again := false, unread := chained, gone := false, win := [] },
   { s with eng := { s.eng with serial := s.eng.serial + 1 } })

/-- R202: a command placed at the tail of a queue. -/
def State.placeEntry (s : State) (q : QueueId) (e : QEntry) : State :=
  s.updQueue q fun x => { x with entries := x.entries ++ [e], state := if x.state = 0 then 1 else x.state }

/-! ## The sequence record (R205) -/

/-- R205: the third double of the record. -/
def Queue.status (q : Queue) : Nat :=
  q.state + q.cause.toNat * 2 ^ 8 + q.chain.isSome.toNat * 2 ^ 16 + q.abort.toNat * 2 ^ 17

/-- R205, R281: a double that the server of a queue, on die `die`, stores for the context of its record, through a slice of its die. -/
def storeServer (s : State) (die ctx : Nat) (va : Dbl) (v : Nat) : State :=
  match translate s die ctx va .write with
  | (.ok pa, s) => s.storeFrom none pa (leBytes 8 v)
  | (_, s) => s

/-- R205: the record written, through the context that bound the queue; a queue that was never bound has none. [log 25 DEDUCED, 26 DEDUCED] -/
def State.writeRecord (s : State) (q : QueueId) : State :=
  match q with
  | .port _ _ => s
  | .ctx c _ =>
    let x := s.queue q
    let put (s : State) (off : Dbl) (v : Nat) : State := match x.server with
      | some sv => storeServer s sv.place.1 c (x.recAddr + off) v
      | none => s
    if !x.recBound then s else
    let s := put s 0 x.seq
    let s := put s 8 (if x.chain.isSome then x.head.toNat else 0)
    let s := put s 16 x.status
    put s 24 x.arg.toNat

/-! ## Faults and completion (R94, R204, R206, R207, R340) -/

/-- Node `n` of a graph changed. -/
def Graph.updNode (x : Graph) (n : Nat) (f : GNode → GNode) : Graph :=
  match x.nodes[n]? with
  | none => x
  | some y => { x with nodes := x.nodes.set n (f y) }

/-- A graph changed. -/
def State.updGraph (s : State) (g : Nat) (f : Graph → Graph) : State :=
  let gs := s.sch.graphs.map fun x => if x.id = g then f x else x
  { s with sch := { s.sch with graphs := gs } }

/-- A node of a graph changed. -/
def State.updNode (s : State) (g n : Nat) (f : GNode → GNode) : State := s.updGraph g (·.updNode n f)

/-- R206, R345: the fault of a command: the placing act takes it, or it is reflected where that act has ended, and a chain of a graph node fails its node. [log 143 DEDUCED] -/
def State.entryFault (s : State) (e : QEntry) (code : Byte) (arg : Dbl) : State :=
  match e.node with
  | some (g, n) => s.updNode g n fun x => { x with result := some (code, arg), chainLeft := 0 }
  | none => if e.gone then s.reflect e.ctx code e.act (s.act e.act).regs.acpc arg else s.trapAsync e.act e.ctx code arg

/-- R206, R389: the commands that stand in queues for act `id`, which ends. [log 137 DEDUCED] -/
def State.orphan (s : State) (id : Nat) : State :=
  let f (e : QEntry) : QEntry := if e.act = id && !e.gone then { e with gone := true, win := (s.act id).window } else e
  let qs := s.eng.queues.map fun p =>
    (p.1, { p.2 with entries := p.2.entries.map f, past := p.2.past.map fun e => (e.1, f e.2) })
  { s with eng := { s.eng with queues := qs } }

/-- R207, R408: the argument of a fault that an access of a command to `va` takes: the virtual address, and the physical address in
LPDDR5X that a fence has cut off. [log 127 DEDUCED] -/
def State.accessArg (s : State) (va : Dbl) (code : Byte) (arg : Dbl) : Dbl :=
  if code = 0x50 && !(s.fencedMem arg.toNat) then va else arg

/-- R94, R207: the queue stops at the entry at its head. -/
def State.stopQueue (s : State) (q : QueueId) (e : QEntry) (code : Byte) (arg : Dbl) : State :=
  let s := s.updQueue q fun x => { x with state := 2, cause := code, arg := arg }
  (s.writeRecord q).entryFault e code arg

/-- R350: a charge to a context's balance, and to those of its ancestors below the virtual device. -/
def State.charge (s : State) (ctx n : Nat) : State :=
  (ctx :: s.ancestors ctx).foldl (fun s c =>
    if (s.ctx c).depth ≤ 1 then s
    else s.updCtx c fun x => { x with balance := max (-(x.portion : Int)) (x.balance - n) }) s

/-- R285: the region of an act drains at a page fault. -/
def State.draining (s : State) (id : Nat) : Bool :=
  match (s.act id).curtain with
  | some c => c.reason == 3
  | none => false

/-- R227: the ranges of a queue's copy leave the scoreboard. -/
def State.freeScore (s : State) (q : QueueId) : State :=
  { s with eng := { s.eng with score := s.eng.score.filter (·.q ≠ q) } }

/-- R350: a copy or collective engine's command is charged 16 for each µs, rounded up, of its busy time. -/
def State.chargeEngine (s : State) (q : QueueId) (e : QEntry) : State :=
  match s.serverOf q, (s.queue q).active with
  | some (.agen _ _), _ => s
  | some _, some a => s.charge e.ctx (16 * ((s.cycle - a.began + 2299) / 2300))
  | _, _ => s

/-- R345: the N-th command of a chain node releases the chain. -/
def Queue.releaseChain (x : Queue) (last : Bool) : Queue :=
  if last then { x with node := none, chain := none, head := 0 } else x

/-- R345: one command of a chain node has completed. [log 24 DEDUCED] -/
def State.countNode (s : State) (e : QEntry) : State :=
  match e.node with
  | none => s
  | some (g, n) => s.updNode g n fun x => { x with chainLeft := x.chainLeft - 1 }

/-- R345: whether the command is the last of its chain node. -/
def State.lastOfNode (s : State) (e : QEntry) : Bool :=
  match e.node with
  | none => false
  | some (g, n) =>
    match s.sch.graphs.find? (·.id == g) with
    | some x => match x.nodes[n]? with
      | some y => y.chainLeft ≤ 1
      | none => false
    | none => false

/-- R223: the commands that a rollback takes back to a recorded position. -/
def tokenCmd (c : Quad) : Bool := [1, 2, 3, 4, 5, 6, 0x18, 0x38].contains (cmdOpc c)

/-- R223: a stream command that has completed is remembered, for a rollback. -/
def Queue.remember (x : Queue) (e : QEntry) : Queue :=
  if tokenCmd e.cmd then { x with fin := x.fin + 1, past := x.past ++ [(x.fin, e)] } else x

/-- R93: a collective command. -/
def collective (c : Quad) : Bool := [0x20, 0x21, 0x22].contains (cmdOpc c)

/-- R205: the active command of a queue has aborted. -/
def Queue.hasAborted (x : Queue) : Bool :=
  match x.active with
  | some a => a.aborted
  | none => false

/-- R204, R205, R340: the command at the head of a queue completes; ABORT tells of the last collective among them. -/
def State.completeHead (s : State) (q : QueueId) : State :=
  match (s.queue q).entries with
  | [] => s
  | e :: rest =>
    let s := (s.chargeEngine q e).freeScore q
    let last := s.lastOfNode e
    let s := s.countNode e
    if (s.queue q).dropped then
      s.updQueue q fun x => { x with entries := rest, active := none, dropped := false, server := none, recBound := false, recAddr := 0 }
    else
      (s.updQueue q fun x : Queue =>
        { x with entries := rest, active := none, seq := if e.again then x.seq else x.seq + 1,
                 abort := if collective e.cmd then x.hasAborted else x.abort,
                 state := if rest = [] then 0 else 1 }.releaseChain last |>.remember e).writeRecord q

/-- The active command of a queue changed. -/
def State.updActive (s : State) (q : QueueId) (f : Active → Active) : State :=
  s.updQueue q fun x => { x with active := x.active.map f }

/-- R228: the collectives of which a member satisfies `f` complete aborted at every member that has not completed; a group stays marked
until all its ranks have come. -/
def State.abortColl (s : State) (f : CollPart → Bool) : State :=
  let hit (p : CollPart) : Bool := s.eng.coll.any fun x => f x && !x.done && x.vdev == p.vdev && x.grp == p.grp && x.no == p.no
  let qs := (s.eng.coll.filter fun p => hit p && !p.done).map (·.q)
  let coll := s.eng.coll.map fun p => if hit p then { p with opc := 0, values := [], done := true } else p
  let s := { s with eng := { s.eng with coll := coll } }
  qs.foldl (fun s q => s.updActive q fun a => { a with aborted := true, finished := true }) s

/-- R340: a queue reset; acts that wait on it in CMD.SEQW take 0x12. A collective that an element's fault has stopped there aborts at its
other members. [log 26 DEDUCED, 72 DEDUCED] -/
def State.resetQueue (s : State) (q : QueueId) : State :=
  let x := s.queue q
  let keep := x.active.isSome && x.state != 2
  let s := if keep then s else s.abortColl fun p => p.q == q
  let s := s.updQueue q fun x =>
    { x with entries := if keep then x.entries.take 1 else [], active := if keep then x.active else none,
             dropped := keep, chain := none, head := 0,
             node := none, bcast := none, seq := 0, state := 0, cause := 0, arg := 0, abort := false, collNo := 0,
             fin := x.fin + 1, past := [] }
  let s := if keep then s else s.freeScore q
  let s := s.writeRecord q
  -- R340: a command that still runs keeps its server until it has completed.
  let s := if keep then s else s.updQueue q fun x => { x with server := none, recBound := false, recAddr := 0 }
  match q with
  | .port _ _ => s
  | .ctx c n =>
    s.acts.foldl (fun s p =>
      if p.2.seqw != some n || s.rootOf p.2.ctx ≠ c then s
      else if p.2.life = .running then s.trapAt p.1 p.2.regs.acpc 0x12 (BitVec.ofNat 64 n)
      else (s.updAct p.1 fun a => { a with seqw := none }).trapAsync p.1 p.2.ctx 0x12 (BitVec.ofNat 64 n)) s

/-! ## Checks at the head of a queue (R94, R206) -/

/-- R93: the kind of server that a command needs: 0 address generator, 1 copy engine, 2 collective engine, 3 any. -/
def cmdServer (opc : Nat) : Option Nat :=
  match opc with
  | 0x01 | 0x02 | 0x03 | 0x04 | 0x05 | 0x06 | 0x18 | 0x38 => some 0
  | 0x10 | 0x11 | 0x12 => some 1
  | 0x20 | 0x21 | 0x22 => some 2
  | 0x30 | 0x31 | 0x32 | 0x33 => some 3
  | _ => none

def Server.kind : Server → Nat
  | .agen _ _ => 0
  | .copy _ => 1
  | .coll _ => 2

/-- R213, R224, R228: the flags that a command defines. -/
def cmdFlags (opc : Nat) : Byte :=
  match opc with
  | 0x01 => 0x33
  | 0x02 => 0x1F
  | 0x03 => 0x03
  | 0x04 => 0x0F
  | 0x05 => 0xE0
  | 0x06 => 0x23
  | 0x20 => 0x07
  | 0x38 => 0x03
  | _ => 0

/-- R213, R224, R228, R232: the reserved bits of OPS. -/
def cmdReserved (opc : Nat) : Dbl :=
  match opc with
  | 0x01 | 0x03 | 0x06 | 0x38 => 0x00000000FFFFFFFF
  | 0x02 | 0x04 => 0xFFFFFFFFFFFFFFFF
  | 0x05 => 0xFFF
  | 0x10 | 0x11 => 0xFF00
  | 0x18 => 0xFFFFFFFFFFFFFFF0
  | 0x20 | 0x21 => 0xFF000000
  | 0x22 => 0xFFFFFFFFFF000000
  | _ => 0

/-- Whether a command names a tensor in TID. -/
def cmdNamesTensor (opc : Nat) : Bool :=
  match opc with
  | 0x01 | 0x02 | 0x03 | 0x04 | 0x05 | 0x06 | 0x10 | 0x11 | 0x12 | 0x20 | 0x21 | 0x38 => true
  | _ => false

/-- R277: the entry of a tensor identifier in a context, where it is valid. -/
def State.tensor (s : State) (ctx tid : Nat) : Option TensorEntry :=
  match assoc? tid (s.ctx ctx).tids with
  | some t => if t.v then some t else none
  | none => none

/-- The queue or port that a queue's chain serves, as a PQ (R206). -/
def chainPqs (s : State) (q : QueueId) : List Nat :=
  match q with
  | .port _ p => [p]
  | .ctx _ n => (64 + n) :: (match s.serverOf q with
      | some (.agen _ p) => [p]
      | _ => [])

/-- R213: the limits on the fields of an address-generator command. -/
def limitsOk (q : Quad) (t : TensorEntry) : Bool :=
  let opc := cmdOpc q
  let cnt := cmdCnt q
  let inRange := decide (cmdStart q + cnt ≤ 2 ^ 32)
  let log := t.fmt.toNat == 9 || t.fmt.toNat == 10
  let fp := t.fmt.toNat == 6 || t.fmt.toNat == 7
  match opc with
  | 0x01 => inRange && (!cmdSC q || (log && t.blk == 32 && cmdStart q % 32 == 0))
  | 0x02 => cmdD q != cmdX q
  | 0x03 => inRange
  | 0x04 => cmdD q != cmdX q
  | 0x06 => inRange && log
  | 0x05 =>
    let cv := cmdCV q
    let slot := bits (cmdOps q) 20 4
    let wide := cv == 2 || (cv == 0 && t.fmt.toNat == 10)
    inRange && cv != 3 && (if cv == 0 then log else fp)
      && (if wide then slot % 2 == 0 && decide (cnt ≤ 2048) else decide (cnt ≤ 4096))
  | 0x20 =>
    (cmdFlg q).toNat % 4 != 3 && [0, 1, 2, 3, 4, 5, 6, 7].contains t.fmt.toNat
  | _ => true

/-- R228: N is 2 to 64 and RANK is below N. -/
def memberOk (q : Quad) : Bool := 2 ≤ colN q && colN q ≤ 64 && colRank q < colN q

/-- R225, R277: the conditions on the two entries of a copy. -/
def copyOk (a b : TensorEntry) (q : Quad) : Bool :=
  dtWidth a.fmt.toNat == dtWidth b.fmt.toNat && a.spn == b.spn
    && (cmdOpc q != 0x11 || bits (cmdOps q) 48 16 != 0)

/-- R94, R206, R225, R232, R233: whether the command at the head of a queue takes a command fault. -/
def State.headOk (s : State) (q : QueueId) (e : QEntry) : Bool :=
  let c := e.cmd
  let opc := cmdOpc c
  let pq := cmdPq c
  (match cmdServer opc, s.serverOf q with
    | some k, some sv => k == 3 || k == sv.kind
    | _, _ => false)
  && (cmdFlg c &&& ~~~(cmdFlags opc) == 0) && decide (pq < 128) && (cmdOps c &&& cmdReserved opc == 0)
  && (!(opc == 0x10 || opc == 0x11 || opc == 0x12 || opc == 0x20 || opc == 0x21 || opc == 0x22) || decide (64 ≤ pq))
  && (!e.chained || (chainPqs s q).contains pq)
  && (opc != 0x32 || e.chained)
  && (cmdNamesTensor opc || cmdTid c == 0)
  && (!([0x22, 0x31, 0x32, 0x33].contains opc) || cmdCnt c == 0)
  && (opc != 0x33 || (cmdOps c &&& ~~~((s.ctx e.ctx).qmask) == 0))
  && (!(opc == 0x20 || opc == 0x21 || opc == 0x22) || memberOk c)
  && (!cmdNamesTensor opc || match s.tensor e.ctx (cmdTid c) with
    | none => false
    | some t => limitsOk c t && (!(opc == 0x10 || opc == 0x11) ||
        match s.tensor e.ctx (bits (cmdOps c) 0 8) with
        | none => false
        | some u => copyOk t u c))

/-! ## The head of a queue -/

/-- The command at the head of a queue that may begin: its queue is not stopped, its joins have completed, its server is there, and
has read it where a chain brought it (R141, R202, R209, R233). -/
def State.headCmd (s : State) (q : QueueId) (opc : Nat) : Option QEntry :=
  let x := s.queue q
  if x.state = 2 || (s.serverOf q).isNone then none
  else match x.entries with
  | [] => none
  | e :: _ =>
    if cmdOpc e.cmd = opc && !e.unread && (x.active.isSome || !(e.joins.any s.outstanding)) then some e else none

/-- A command with nothing performed yet. -/
def Active.fresh (cycle : Nat) : Active :=
  { began := cycle, pos := 0, idx := 0, sigma := 0, scaled := 0, outs := [], ending := false,
    finished := false, aborted := false, withheld := none, saved := [] }

/-- R350: whether the command at the head of a queue of a copy or collective engine has the turn among the contexts of its
virtual device that have ready work there: the largest balance goes first, and a context at −P is given nothing. -/
def State.engineTurn (s : State) (q : QueueId) (e : QEntry) : Bool :=
  let c := s.ctx e.ctx
  match s.serverOf q with
  | some (.agen _ _) => true
  | none => true
  | some sv =>
    c.depth ≤ 1 || (decide (-(c.portion : Int) < c.balance) && s.eng.queues.all fun p =>
      p.1 == q || s.serverOf p.1 != some sv || p.2.state == 2 || p.2.active.isSome || match p.2.entries with
        | [] => true
        | e' :: _ =>
          let c' := s.ctx e'.ctx
          e'.unread || c'.depth ≤ 1 || decide (c'.balance ≤ -(c'.portion : Int)) || s.rootOf e'.ctx != s.rootOf e.ctx || e'.joins.any s.outstanding
            || decide (c'.balance < c.balance) || (c'.balance == c.balance && decide (c.id ≤ c'.id)))

/-- R94: the command at the head of a queue with opcode `opc` begins: it is checked and, if it passes, `f` begins
it; a command fault stops the queue. -/
def State.beginHead (s : State) (q : QueueId) (opc : Nat) (f : State → QEntry → State) : State :=
  match s.headCmd q opc with
  | none => s
  | some e =>
    if (s.queue q).active.isSome || !(s.engineTurn q e) then s
    else if !(s.headOk q e) then s.stopQueue q e 0x01 e.addr
    else f s e

/-- The head of a queue becomes active. -/
def State.activate (s : State) (q : QueueId) : State :=
  s.updQueue q fun x => { x with active := some (Active.fresh s.cycle) }

end Sys2Proof.Machine
end

