-- ==== Sys2Proof/Machine/Cmd.lean ====
section
/-! DEFINITION. The CMD group, the fences, and how commands leave the issue buffer and chains (R138 to R143, R149,
R202, R208, R209, R234). -/
namespace Sys2Proof.Machine

/-- R139: CMD.PACK. -/
def execCmdPack (a b : Reg) (c : BitVec 3) (s : State) : Host.Outcome State Fault Refusal :=
  let v : Quad := s.g a ++ s.g b
  .next (s.updCur fun x => x.updRegs fun r => { r with c := r.c.set c.toNat v c.isLt }).retire

/-- R139: the commands that an issue buffer holds. -/
def commandsHeld (l : List IssueEntry) : Nat :=
  l.countP fun e => match e.kind with
    | .join _ => false
    | _ => true

/-- R139, R149: an entry put into the issue buffer of the act that is executed. -/
def State.enterIssue (s : State) (k : IssueKind) (cmd : Quad) : State :=
  s.updCur fun a =>
    { a with issue := a.issue ++ [{ kind := k, cmd := cmd, addr := a.regs.acpc, ctx := a.ctx,
                                    stamp := a.regs.stamp.toNat, held := false, late := false }] }

/-- R139: an ISSUE or APPEND enters the buffer, or stalls while it holds 8 commands. -/
def enterOrStall (s : State) (k : IssueKind) (cmd : Quad) : Did :=
  if 8 ≤ commandsHeld s.cur.issue then .wait s else .done (s.enterIssue k cmd) 0

/-- R139: the value of a command register. -/
def State.c (s : State) (n : BitVec 3) : Quad := s.cur.regs.c[n.toNat]'(n.isLt)

/-- R139, R146: CMD.ISSUE. -/
def execCmdIssue (c : BitVec 3) (s : State) : Host.Outcome State Fault Refusal :=
  .next ((needTask (.cmdIssue c) s fun s =>
    let pq := cmdPq (s.c c)
    if !(pqGranted s s.cur pq) then .trap s 0x12 (BitVec.ofNat 64 pq)
    else enterOrStall s .issue (s.c c)).end)

/-- R139, R146: CMD.APPEND. -/
def execCmdAppend (a : Reg) (c : BitVec 3) (s : State) : Host.Outcome State Fault Refusal :=
  .next ((needTask (.cmdAppend a c) s fun s =>
    let d := s.g a
    if d.toNat % 32 ≠ 0 then .trap s 0x03 d
    else enterOrStall s (.append d) (s.c c)).end)

/-- R140: CMD.SEQW. -/
def execCmdSeqw (a b : Reg) (s : State) : Host.Outcome State Fault Refusal :=
  let n := (s.g a).toNat
  .next (if 64 ≤ n || !(s.curCtx.qmask.getLsbD n) then s.trap 0x12 (s.g a)
    else if (s.g b).toNat ≤ (s.queue (.ctx (s.rootOf s.cur.ctx) n)).seq then
      (s.updCur fun x => { x with seqw := none }).retire
    else s.updCur fun x => { x with seqw := some n })

/-- R141: FENCE.Q. -/
def execFenceQ (a : Reg) (s : State) : Host.Outcome State Fault Refusal :=
  let m := s.g a
  .next (if m &&& ~~~s.curCtx.qmask ≠ 0 then s.trap 0x12 m
    else if m = 0 then s.retire
    else (s.enterIssue (.join m) 0).retire)

/-- R142, R309: an access that an act has sent to an atomic engine is still to be performed (A6, DESIGN CHOICE). -/
def accessesPending (s : State) (id : Nat) : Bool := s.eng.atoms.any (·.act == id)

/-- R143: a fence of scope 4 in a virtual device whose policy limits fences is demoted. -/
def State.demoteFence (s : State) (scope : BitVec 3) : State :=
  if scope = 4 && (s.ctx (s.rootOf s.cur.ctx)).fpol then s.updCur fun a => a.updRegs fun r => { r with fdem := true }
  else s

/-- R142: the stream commands that the address generators of an act's region have begun and not completed. -/
def State.openStreams (s : State) (id : Nat) : List Nat :=
  s.eng.queues.filterMap fun p => match p.2.entries, p.2.active, s.serverOf p.1 with
    | e :: _, some _, some (.agen die k) => if tokenCmd e.cmd && s.mine id { die := die, tile := 256 + k } && p.2.state != 2 then some e.no else none
    | _, _, _ => none

/-- R142: the streams opened before the fence of the act that is executed, as far as they are open still. -/
def State.fencedStreams (s : State) : List Nat :=
  let now := s.openStreams s.me
  (s.cur.fenceS.getD now).filter now.contains

/-- R142, R143: FENCE.S. -/
def execFenceS (scope : BitVec 3) (s : State) : Host.Outcome State Fault Refusal :=
  .next (if 5 ≤ scope.toNat then s.trap 0x01 (wordArg (.fenceS scope))
    else if accessesPending s s.me || s.fencedStreams != [] then s.updCur fun a => { a with fenceS := some s.fencedStreams }
    else ((s.updCur fun a => { a with fenceS := none }).demoteFence scope).retire)

/-! ## Leaving the issue buffer -/

/-- R149, R234: an entry may leave once its task is the oldest of its domain, or has committed. -/
def mayLeave (s : State) (e : IssueEntry) : Bool :=
  match (s.ctx e.ctx).tasks.find? fun t => t.stamp == e.stamp with
  | none => true
  | some t => t.step1

/-- The access of an engine on behalf of act `id` (R124, R125); the tile of its page request is a free value. -/
def accessAct (s : State) (id ctx : Nat) (va : Dbl) (k : Access) : Got × State :=
  match accessAs s (.act id) (actDie id) (Config.freeNat s.fresh % 320) ctx id va k with
  | (.wait, s) => (.wait, { s with fresh := s.fresh + 1 })
  | (g, s) => (g, s)

/-- R208: trap_async: the entry is held at the head of the buffer, and the act takes the code. [log 22 DEDUCED] -/
def State.trapHeld (s : State) (id : Nat) (e : IssueEntry) (rest : List IssueEntry) (code : Byte) (arg : Dbl) : State :=
  (s.updAct id fun a => { a with issue := { e with held := true } :: rest }).trapAsync id e.ctx code arg

/-- R208, R287: an append that fails takes its code; in a drain it waits for the restore. -/
def State.failAppend (s : State) (id : Nat) (e : IssueEntry) (rest : List IssueEntry) (code : Byte) (arg : Dbl) : State :=
  if s.draining id then s.updAct id fun a => { a with issue := { e with late := true } :: rest } else s.trapHeld id e rest code arg

/-- R287: an append that misses in a drain waits for the restore, whenever its page comes. -/
def State.missAppend (s : State) (id : Nat) (e : IssueEntry) (rest : List IssueEntry) : State :=
  if s.draining id then s.updAct id fun a => { a with issue := { e with late := true } :: rest } else s

/-- R375, R376: a command of act `id` is placed by `f`, and the effect logged; a replay drops it, and a full log
makes it wait for the next cut. -/
def placeLogged (s : State) (id : Nat) (e : IssueEntry) (rest : List IssueEntry) (f : State → State × Bool) : State :=
  match (s.act id).replayed true with
  | some (_, a) => s.updAct id fun _ => { a with issue := rest }
  | none =>
    if 64 ≤ (s.act id).log.length then s.updAct id Act.forceMark
    else
      let (s, placed) := f s
      if placed then s.updAct id fun a => { a.logs true e.ctx e.stamp 0 with issue := rest } else s

/-- R202, R341: an issued command is placed in its queue, or dropped with 0x01 where no server is bound. -/
def placeIssued (s : State) (id : Nat) (e : IssueEntry) (rest : List IssueEntry) : State :=
  let drop : State := (s.updAct id fun a => { a with issue := rest }).trapAsync id e.ctx 0x01 e.addr
  match queueNamed s (s.act id).region.die e.ctx (cmdPq e.cmd) with
  | none => drop
  | some q =>
    if !(s.bound q) then drop
    else placeLogged s id e rest fun s =>
      let (x, s) := newEntry s id e.ctx e.stamp e.cmd e.addr false q
      (s.placeEntry q x, true)

/-- R202, R208: an appended command leaves the buffer, is written in the chain whose descriptor stands at `d`, and is placed by that. -/
def placeAppended (s : State) (id : Nat) (e : IssueEntry) (rest : List IssueEntry) (d : Dbl) : State :=
  match accessAct s id e.ctx d .write with
  | (.wait, s) => s.missAppend id e rest
  | (.fault c x, s) => s.failAppend id e rest c x
  | (.ok pa, s) =>
    let tail : Dbl := BitVec.ofNat 64 (s.mem.readN pa 8)
    let limit : Dbl := BitVec.ofNat 64 (s.mem.readN (pa + 8) 8)
    let n := s.mem.readN (pa + 16) 1 % 64
    let q : QueueId := .ctx (s.rootOf e.ctx) n
    if !((s.ctx e.ctx).qmask.getLsbD n) then s.failAppend id e rest 0x12 d
    else if !(s.bound q) then s.failAppend id e rest 0x01 d
    else if (s.queue q).chain.isSome && (s.queue q).chain != some d then s.failAppend id e rest 0x12 d
    else if tail = limit || tail.toNat % 16 ≠ 0 then s.failAppend id e rest 0x12 d
    else
      match accessAct s id e.ctx tail .write with
      | (.wait, s) => s.missAppend id e rest
      | (.fault c x, s) => s.failAppend id e rest c x
      | (.ok slot, s) =>
        placeLogged s id e rest fun s =>
          let (x, s) := newEntry s id e.ctx e.stamp e.cmd tail true q
          let s := (s.store pa 8 (tail + 16).toNat).store slot 16 e.cmd.toNat
          -- R288: what the step reads and stores is the task's.
          let s := ((s.recordIn id e.ctx e.stamp false d 24).recordIn id e.ctx e.stamp true d 8).recordIn id e.ctx e.stamp true tail 16
          ((s.updQueue q fun y =>
            { y with head := if y.chain.isNone then tail else y.head, chain := some d, owner := (id, e.ctx, e.stamp) }).placeEntry q x, true)

/-- R141: a join leaves the buffer: the act's later commands to the queues it names wait for its earlier ones. -/
def State.placeJoin (s : State) (id : Nat) (e : IssueEntry) (rest : List IssueEntry) (m : Dbl) : State :=
  let root := s.rootOf e.ctx
  let ws := (s.maskQueues root m).flatMap fun p => (p.2.entries.filter fun x => x.act == id).map (·.no)
  s.updAct id fun a =>
    { a with issue := rest,
             fences := (a.fences.filter fun f => f.waits.any s.outstanding)
               ++ (if ws = [] then [] else [{ root := root, mask := m, waits := ws }]) }

/-- R202, R234: COMMAND_LEAVES_ISSUE_BUFFER. -/
def execCommandLeavesIssueBuffer (act : Nat) (s : State) : Host.Outcome State Fault Refusal :=
  let a := s.act act
  .next (match a.issue with
    | [] => s
    | e :: rest =>
      if e.held || (e.late && s.draining act) || !(mayLeave s e) || a.life = .switchedOut || a.life = .free then s
      else match e.kind with
      | .issue => placeIssued s act e rest
      | .append d => placeAppended s act e rest d
      | .join m => s.placeJoin act e rest m)

/-! ## Chains (R209, R345) -/

/-- The address of the chain's next free slot, as memory holds it now. [log 23 DEDUCED] -/
def chainTail (s : State) (ctx : Nat) (d : Dbl) : Option Nat := readCtl s ctx d 8

/-- R209: what is known of the slot at the head of a chain: the command that its append placed, or, for a slot that no append
has reserved and from which the tail has moved away, what is known of the last append of the queue. -/
def chainSlot (s : State) (q : QueueId) : Option QEntry :=
  let x := s.queue q
  match x.chain with
  | none => none
  | some d =>
    match x.entries.find? fun e => e.unread && e.addr == x.head with
    | some e => some e
    | none =>
      let e : QEntry := { no := s.eng.serial, cmd := 0, act := x.owner.1, ctx := x.owner.2.1, stamp := x.owner.2.2,
                          addr := x.head, chained := true, node := x.node, joins := [], again := false, unread := true, gone := false, win := [] }
      if x.node.isSome then some e
      else match chainTail s x.owner.2.1 d with
      | some t => if t = x.head.toNat then none else some e
      | none => none

/-- R202, R209: a chain's entry that has been read stands where it was placed, and one that no append placed before those still to be
read. -/
def putRead (l : List QEntry) (e : QEntry) : List QEntry :=
  (l.takeWhile (!·.unread)) ++ e :: (l.dropWhile (!·.unread)).filter (·.no ≠ e.no)

/-- R209: the entry at the head of a chain read. A LINK holds the head until it completes. -/
def State.readChain (s : State) (q : QueueId) (e : QEntry) (sv : Server) : State :=
  let x := s.queue q
  match accessAs s (.queue q) sv.place.1 sv.place.2 e.ctx e.act x.head .read with
  | (.wait, s) => s
  | (.fault c a, s) => s.stopQueue q e c (s.accessArg x.head c a)
  | (.ok pa, s) =>
    let cmd : Quad := BitVec.ofNat 128 (s.mem.readN pa 16)
    let e := { e with cmd := cmd, unread := false, joins := if e.cmd = cmd then e.joins else e.joins ++ qfenceJoins s q cmd }
    let s := { s with eng := { s.eng with serial := Nat.max s.eng.serial (e.no + 1) } }
    s.updQueue q fun y =>
      { y with entries := putRead y.entries e, head := if cmdOpc cmd = 0x32 then y.head else y.head + 16,
               state := if y.state = 0 then 1 else y.state }

/-- R345: the commands of a chain node that its server has still to read. -/
def State.nodeUnread (s : State) (q : QueueId) : Bool :=
  let x := s.queue q
  match x.node with
  | none => true
  | some (g, n) => match s.sch.graphs.find? (·.id == g) with
    | none => false
    | some y => match y.nodes[n]? with
      | none => false
      | some z => decide ((x.entries.filter fun e => e.node == x.node).length < z.chainLeft)

/-- R209: CHAIN_ENTRY_READ. -/
def execChainEntryRead (q : QueueId) (s : State) : Host.Outcome State Fault Refusal :=
  let x := s.queue q
  .next (match s.serverOf q, chainSlot s q with
    | some sv, some e =>
      if x.state = 2 || (x.entries.any fun e => e.chained && !e.unread && cmdOpc e.cmd == 0x32) || !(s.nodeUnread q) then s
      else s.readChain q e sv
    | _, _ => s)

end Sys2Proof.Machine
end

