-- ==== Sys2Proof/Machine/Room.lean ====
section
/-! DEFINITION. The bytes of a green room: its place in partition memory, its header, its chunks as they are encrypted, and its tag table
(R380 to R383), with the keys of contexts (R382, R422). -/
namespace Sys2Proof.Machine

/-! ## Keys (R382, R422) -/

/-- The key stores of both control dies changed. -/
def State.updKeys (s : State) (f : KeyStore → KeyStore) : State :=
  let ds := s.ctl.dies.map fun d => { d with keys := f d.keys }
  { s with ctl := { s.ctl with dies := ds } }

/-- R382: the key of a context, by number, in the key store of the control die that serves the package. -/
def State.keyOf (s : State) (ctx : Nat) : Option Nat := assoc? ctx (s.cdie s.leader).keys.contexts

/-- R382: a context created is given a key of its own, which every key store holds. -/
def State.giveKey (s : State) (ctx : Nat) : State :=
  let k := s.eng.serial
  { s with eng := { s.eng with serial := k + 1 } }.updKeys fun x => { x with contexts := assocSet ctx k x.contexts }

/-- R382: the keys of revoked contexts are gone. -/
def State.dropKeys (s : State) (cs : List Nat) : State :=
  s.updKeys fun x => { x with contexts := x.contexts.filter fun p => !(cs.contains p.1) }

/-! ## Chunks (R380, R382) -/

/-- R382: the nonce of a chunk, its index above the save counter. -/
def chunkNonce (i counter : Nat) : List Byte := leBytes 8 counter ++ leBytes 4 i

/-- R382: the additional authenticated data of a chunk: CTXID, ACTID, the chunk index and the version. -/
def chunkAad (ctx act i : Nat) : List Byte := leBytes 4 ctx ++ leBytes 4 act ++ leBytes 4 i ++ leBytes 4 1

/-- R380: the fields of the header: MAGIC, version 1, ACTID and CTXID, and the chunk count. -/
def roomHeader (ctx act count : Nat) : List Byte :=
  leBytes 8 (0xA86E + 2 ^ 16 + act % 512 * 2 ^ 24 + ctx % 4096 / 2 * 2 ^ 33 + ctx % 2 * 2 ^ 44) ++ leBytes 8 count

/-- R380: the contents of a chunk; beyond the header's fields the manual lays out no byte of them. [log 140 DESIGN CHOICE] -/
def chunkPlain (ctx i : Nat) (c : Chunk) : List Byte :=
  let bs := (List.range 4096).map fun j => Config.roomByte c.seed i j
  if i = 0 then roomHeader ctx c.act c.count ++ bs.drop 16 else bs

/-- R382: a chunk encrypted. -/
def chunkCipher (ctx i : Nat) (c : Chunk) : List Byte :=
  (List.range 4096).map (Config.gcmByte (Config.aesKey c.key) (chunkNonce i c.counter) (chunkAad ctx c.act i) (chunkPlain ctx i c))

/-- R380, R382: the entry of a chunk in the tag table: its tag, the counter of its save, and its length. -/
def chunkTag (ctx i : Nat) (c : Chunk) : List Byte :=
  (List.range 16).map (Config.gcmTagByte (Config.aesKey c.key) (chunkNonce i c.counter) (chunkAad ctx c.act i) (chunkPlain ctx i c))
    ++ leBytes 8 c.counter ++ leBytes 8 4096

/-- R380: where a chunk of a room of `n` chunks lies, and where its entry in the tag table behind the chunks. -/
def GreenRoom.chunkAt (g : GreenRoom) (i : Nat) : Nat := g.addr.toNat + 4096 * i
def GreenRoom.tagAt (g : GreenRoom) (i : Nat) : Nat := g.addr.toNat + 4096 * g.chunks.length + 32 * i

/-- R380: the bytes that a room of `n` chunks takes, in whole chunks. -/
def roomBytes (n : Nat) : Nat := 4096 * (n + (n + 127) / 128)

/-- Bytes that the scheduler firmware stores outside every window. -/
def State.storeRoom (s : State) (pa : Nat) (bs : List Byte) : State := { s with mem := s.mem.writeList pa bs }.clearPoison pa bs.length

/-- R380, R381: the chunks of a room that `which` names written, and its tag table. -/
def State.writeRoom (s : State) (g : GreenRoom) (ctx : Nat) (which : Nat → Bool) : State :=
  if g.size = 0 then s
  else
    let s := (List.range g.chunks.length).foldl (fun s i => match g.chunks[i]? with
      | some c => if which i then s.storeRoom (g.chunkAt i) (chunkCipher ctx i c) else s
      | none => s) s
    (List.range g.chunks.length).foldl (fun s i => match g.chunks[i]? with
      | some c => s.storeRoom (g.tagAt i) (chunkTag ctx i c)
      | none => s) s

/-! ## What a restore reads (R383) -/

/-- R383: what a restore finds in chunk `i`: an uncorrectable error, with its physical address, or a tag that does not match. A chunk
matches as it was written, under the key that its context still has. [log 140 DESIGN CHOICE] -/
def State.chunkFault (s : State) (g : GreenRoom) (ctx i : Nat) (c : Chunk) : Option (Byte × Nat) :=
  match (if g.size = 0 then none else (s.firstPoison (g.chunkAt i) 4096).or (s.firstPoison (g.tagAt i) 32)) with
  | some pa => some (0x50, pa)
  | none =>
    if s.keyOf ctx != some c.key then some (0x51, g.chunkAt i)
    else if g.size ≠ 0 && !(s.mem.readList (g.chunkAt i) 4096 == chunkCipher ctx i c && s.mem.readList (g.tagAt i) 32 == chunkTag ctx i c) then
      some (0x51, g.chunkAt i)
    else none

/-- R383: the first failure of a restore, which reads the chunks in index order. -/
def State.roomFault (s : State) (g : GreenRoom) (ctx : Nat) : Option (Byte × Nat) :=
  (List.range g.chunks.length).findSome? fun i => (g.chunks[i]?).bind (s.chunkFault g ctx i)

/-! ## Where a room lies (R380) -/

/-- A range of addresses cut out of others. -/
def cutOut (w : Nat × Nat) (gs : List (Nat × Nat)) : List (Nat × Nat) :=
  gs.flatMap fun g => [(g.1, Nat.min g.2 w.1), (Nat.max g.1 w.2, g.2)].filter fun x => decide (x.1 < x.2)

/-- R380: the memory of a partition outside every context's window and every green room, as ranges. -/
def State.roomHoles (s : State) (part : Nat) : List (Nat × Nat) :=
  match s.part? part with
  | none => []
  | some p =>
    let ws := (s.ctxs.filter fun c => c.2.parent.isNone && !c.2.revoked).map fun c => (c.2.fb, c.2.fb + c.2.fl)
    let rs := (s.sch.green.filter fun g => g.size ≠ 0).map fun g => (g.addr.toNat, g.addr.toNat + g.size)
    (ws ++ rs).foldl (fun gs w => cutOut w gs) [(p.spec.base, p.spec.base + p.spec.length)]

/-- R380: the place that the scheduler firmware allocates for a room of `size` bytes, a free value, or address 0 where the partition has
none. [log 140 DESIGN CHOICE] -/
def State.roomPlace (s : State) (part size : Nat) : (Nat × Nat) × State :=
  let up (a : Nat) : Nat := (a + 4095) / 4096 * 4096
  let fit := (s.roomHoles part).filter fun h => decide (up h.1 + size ≤ h.2) && populated (up h.1) && populated (h.2 - 1)
  let (x, s) := s.free
  let (y, s) := s.free
  match fit[x % fit.length]? with
  | none => ((0, 0), s)
  | some h => ((up h.1 + 4096 * (y % ((h.2 - up h.1 - size) / 4096 + 1)), size), s)

end Sys2Proof.Machine
end

