-- ==== Sys2Proof/Machine/Records.lean ====
section
/-! DEFINITION. Completion records and the states of a launch (R335 to R338, R346), the release of banks (R267), and
what becomes of an act when it completes (R161, R275). -/
namespace Sys2Proof.Machine

/-- R346: a completion record written, where the level has one. -/
def State.writeCompletion (s : State) (ctx : Nat) (addr : Dbl) (count st level : Nat) (closed : Bool) (code : Byte)
    (arg : Dbl) : State :=
  if addr = 0 then s
  else
    let s := storeCtl s ctx addr 8 count
    let s := storeCtl s ctx (addr + 8) 8 (st + level * 2 ^ 8 + closed.toNat * 2 ^ 11 + code.toNat * 2 ^ 16)
    let s := storeCtl s ctx (addr + 16) 8 arg.toNat
    storeCtl s ctx (addr + 24) 8 0

def State.launch? (s : State) (id : Nat) : Option Launch := s.sch.launches.find? fun l => l.id == id

/-- A launch changed. -/
def State.updLaunch (s : State) (id : Nat) (f : Launch → Launch) : State :=
  let ls := s.sch.launches.map fun l => if l.id = id then f l else l
  { s with sch := { s.sch with launches := ls } }

/-- R436: the number of a launch state in a trace record. -/
def LaunchSt.code : LaunchSt → Nat
  | .waiting => 0
  | .admitting => 1
  | .placing => 2
  | .running => 3
  | .complete => 4
  | .failed => 5
  | .cancelled => 6

/-- R346: STATE of a completion record. -/
def LaunchSt.record : LaunchSt → Nat
  | .complete => 1
  | .failed => 2
  | .cancelled => 3
  | _ => 0

/-- R338: a launch that has ended. -/
def LaunchSt.ended (x : LaunchSt) : Bool := x == .complete || x == .failed || x == .cancelled

/-- R346: the completion record of a launch, as it stands; it is closed from step 6 of R337 on, when its acts stand. -/
def State.writeLaunch (s : State) (l : Launch) (code : Byte) (arg : Dbl) : State :=
  s.writeCompletion l.ctx l.done l.count l.state.record 1 (l.acts != []) code arg

/-- R338, R436: a launch enters a state. -/
def State.launchTo (s : State) (id : Nat) (st : LaunchSt) (code : Byte) (arg : Dbl) : State :=
  match s.launch? id with
  | none => s
  | some l =>
    let s := s.updLaunch id fun l => { l with state := st, outcome := if st = .failed then (code, arg) else l.outcome }
    (s.writeLaunch { l with state := st } code arg).trace 0x01 l.ctx 0 0 l.done.toNat st.code

/-! ## Banks (R267, R268) -/

/-- The number of a bank in the package. -/
def bankKey (die bank : Nat) : Nat := die * 512 + bank

/-- The launches that have not ended. -/
def State.openLaunches (s : State) : List Launch := s.sch.launches.filter fun l => !l.state.ended

/-- The launches that have not ended, and the ended ones of which an act still stands. -/
def State.heldLaunches (s : State) : List Launch :=
  s.sch.launches.filter fun l => !l.state.ended || s.acts.any fun p => p.2.life != .free && p.2.launch == some l.id

/-- R267: whether some launch of a context that has not ended was granted a bank for its window, or for its wings. -/
def State.bankInUse (s : State) (ctx key : Nat) : Bool :=
  s.heldLaunches.any fun l => l.ctx == ctx && l.places.any fun p => (p.banks ++ p.wings).any fun b => bankKey p.die b == key

/-- R430: whether the repair map lists a stream bank. -/
def State.bankListed (s : State) (die b : Nat) : Bool :=
  s.fab.repair.any fun w => (w.extractLsb' 29 3).toNat == die && (w.extractLsb' 27 2 == 1)
    && (w.extractLsb' 15 12).toNat == 256 + b / 8 && (w.extractLsb' 11 4).toNat == b % 8

/-- R449: the unlisted banks of the port tiles of a partition's rectangle on a die. -/
def State.bankPool (s : State) (ctx die : Nat) : List Nat :=
  match s.part? (s.ctx ctx).part with
  | none => []
  | some p =>
    match p.spec.rects[die]? with
    | none => []
    | some w =>
      if !w.getLsbD 31 then []
      else
        let ports := (rectRegion die w).tiles.filter fun t => 256 ≤ t.tile
        (ports.flatMap fun t => (List.range 8).map fun u => 8 * (t.tile - 256) + u).filter fun b => !s.bankListed die b

/-- R267, R274: a bank moved into a window or the wings; a gated one is woken. -/
def State.grantBank (s : State) (key : Nat) (use : BankUse) : State :=
  let b := s.bank key
  if b.use = use then s
  else
    let wake := if b.use = .gated then s.cycle + 460 else b.wake
    let banks := assocSet key { b with use := use, bytes := [], poison := [], wake := wake } s.fab.banks
    { s with fab := { s.fab with banks := banks } }

/-- R267: a bank chosen for a launch whose acts do not stand yet. -/
def State.bankReserved (s : State) (key : Nat) : Bool :=
  s.sch.launches.any fun l => (l.state == .admitting || l.state == .placing) && l.places.any fun p =>
    (p.banks ++ p.wings).any fun b => bankKey p.die b == key

/-- R267, R380: a green room that keeps the contents of a bank. -/
def GreenRoom.keeps (g : GreenRoom) (key : Nat) : Bool := g.banks.any (·.1 == key)

/-- R267: the acts in whose window a bank is, but for those whose green rooms keep its contents. -/
def State.bankHolders (s : State) (key : Nat) : List Act :=
  (s.acts.map (·.2)).filter fun a => a.life != .free && a.window.contains key
    && !(s.sch.green.any fun g => g.act.id == a.id && g.keeps key)

/-- R267: the scheduler may take a bank: it is free or gated, or stands in the window of another context of which every act that has it
there is switched out. [log 58 DEDUCED] -/
def State.bankLoose (s : State) (ctx key : Nat) : Bool :=
  !s.bankReserved key && match (s.bank key).use with
  | .gated | .free => true
  | .window c => c != ctx && s.bankHolders key != [] && (s.bankHolders key).all (·.life == .switchedOut)
  | .wings _ => false

/-- R267, R380, R382: the contents of a lent bank written to a green room, in eight chunks under the counter of its last save. -/
def State.lendTo (s : State) (key : Nat) (g : GreenRoom) : State :=
  let (x, s) := s.free
  let new : Chunk := { (g.chunks.headD { act := g.act.id, counter := 0, key := 0, seed := 0, count := 0 }) with seed := x }
  let h := { g with banks := g.banks ++ [(key, s.bank key)], chunks := g.chunks ++ List.replicate 8 new }
  let gs := s.sch.green.map fun y => if y.act.id = g.act.id then h else y
  { s with sch := { s.sch with green := gs } }.writeRoom h (s.act g.act.id).ctx fun i => decide (g.chunks.length ≤ i)

/-- R267: a bank lent: its contents go to the green rooms of the acts in whose window it is. [log 58 DEDUCED] -/
def State.lend (s : State) (key : Nat) : State :=
  let ids := (s.bankHolders key).map (·.id)
  (s.sch.green.filter fun g => ids.contains g.act.id).foldl (fun s g => s.lendTo key g) s

/-- R267: a bank taken for a use; one that stood in the window of another context is lent. -/
def State.takeBank (s : State) (key : Nat) (use : BankUse) : State :=
  let s := match (s.bank key).use with
    | .window c => if use = BankUse.window c then s else s.lend key
    | _ => s
  s.grantBank key use

/-- R267, R380: a bank that was lent comes back into its window with its contents, and no green room of that context keeps them any
longer. -/
def State.returnBank (s : State) (key : Nat) (old : Bank) : State :=
  let s := s.takeBank key old.use
  let banks := assocSet key { s.bank key with bytes := old.bytes, poison := old.poison } s.fab.banks
  let gs := s.sch.green.map fun g => { g with banks := g.banks.filter fun p => p.1 != key || p.2.use != old.use }
  { s with fab := { s.fab with banks := banks }, sch := { s.sch with green := gs } }

/-- R268: a commit domain runs on a die: an act of it stands there, or has entered it, or lines of it are staged there. -/
def State.domainRuns (s : State) (ctx die : Nat) : Bool :=
  (s.acts.any fun p => p.2.life != .free && actDie p.1 == die && (p.2.ctx == ctx || p.2.ctxStack.contains ctx))
    || (s.ctx ctx).tasks.any fun t => t.lines.any (·.die == die)

/-- R267, R268: the banks of a die that a domain may take as wings. -/
def State.wingPool (s : State) (ctx die : Nat) : List Nat :=
  (s.bankPool ctx die).filter fun b => match (s.bank (bankKey die b)).use with
    | .gated | .free => !s.bankReserved (bankKey die b)
    | _ => false

/-- R268: a domain may begin to run on a die: it holds wings there, or 32 banks are free. Where its partition has fewer banks there, all of
them. [log 133 DEDUCED] -/
def State.wingsReady (s : State) (ctx die : Nat) : Bool :=
  s.wingBanks ctx die != 0 || decide (Nat.min 32 (s.bankPool ctx die).length ≤ (s.wingPool ctx die).length)

/-- R268: a domain that begins to run on a die where it holds no wings is given 32 banks. Which banks is the scheduler's choice, a free
value. [log 133 DEDUCED] -/
def State.giveWings (s : State) (ctx die : Nat) : State :=
  if s.wingBanks ctx die ≠ 0 then s
  else
    let l := s.wingPool ctx die
    let (x, s) := s.free
    let n := x % (l.length + 1)
    ((l.drop n ++ l.take n).take 32).foldl (fun s b => s.grantBank (bankKey die b) (.wings ctx)) s

/-- R267: banks that no launch needs any longer become free. -/
def State.releaseBanks (s : State) : State :=
  let bs := s.fab.banks.map fun p => match p.2.use with
    | .window c => if s.bankInUse c p.1 then p else (p.1, { p.2 with use := .free })
    | .wings c => if s.bankInUse c p.1 || s.domainRuns c (p.1 / 512) then p else (p.1, { p.2 with use := .free })
    | _ => p
  { s with fab := { s.fab with banks := bs } }

/-- R368, R411: the floor of a context with no launch that has not ended is inactive, and suspended no longer. -/
def State.dropFloor (s : State) (ctx : Nat) : State :=
  if s.openLaunches.any (·.ctx == ctx) then s
  else
    let p := s.ctl.power
    let s := { s with ctl := { s.ctl with power := { p with suspended := p.suspended.filter (· ≠ ctx) } } }
    s.updCtx ctx fun c => { c with floorSince := none }

/-- The region of a placement. -/
def placeRegion (p : Placement) : RegionSt :=
  { RegionSt.zero with die := p.die, x0 := p.x0, y0 := p.y0, w := p.w, h := p.h, bsel := p.bsel }

/-- R15, R236: the act context of a placement: that of its slot in the block of its north-west tile. -/
def placeAct (p : Placement) : Nat := mkActId p.die (p.y0 / 4 * 4 + p.x0 / 4) p.slot

/-- R351: the virtual device of a context has the quantum of its partition; in the switch gap none has. -/
def State.deviceRuns (s : State) (ctx : Nat) : Bool :=
  match s.part? (s.ctx ctx).part with
  | none => true
  | some p => (s.sch.vdevs.filter fun v => v.part == p.id).length ≤ 1 || (p.running == s.rootOf ctx && !p.switching)

/-- The placements of launches that have been admitted and whose acts do not stand yet. -/
def State.pendingPlaces (s : State) : List Placement :=
  (s.sch.launches.filter fun l => l.state == .admitting || l.state == .placing).flatMap (·.places)

/-- Those of them whose virtual device has its quantum: the tiles of the others are not held against it. -/
def State.pendingHere (s : State) : List Placement :=
  (s.sch.launches.filter fun l => (l.state == .admitting || l.state == .placing) && s.deviceRuns l.ctx).flatMap (·.places)

/-- R337, R351: what the steps of a launch before its set-up did is undone: slots, queues and the registered stamp. Tiles that another act
has taken, or another virtual device in its quantum, keep their words. -/
def State.undoLaunch (s : State) (l : Launch) : State :=
  let ts := if s.deviceRuns l.ctx then (l.places.flatMap fun p => (placeRegion p).tiles).filter fun t => (s.ownerOf t).isNone else []
  let s := ts.foldl (fun s t => s.updTile t fun x => { x with cfg := [none, none, none, none], parity := [] }) s
  let s := l.queues.foldl (fun s q => s.resetQueue q) s
  match l.before with
  | none => s
  | some n => s.updCtx l.ctx fun c =>
      { c with reserved := c.reserved.filter (· ≠ l.stamp), highest := if c.highest = l.stamp then n else c.highest }

/-- R338: a launch ends; one whose acts do not stand yet is undone. -/
def State.endLaunch (s : State) (id : Nat) (st : LaunchSt) (code : Byte) (arg : Dbl) : State :=
  match s.launch? id with
  | none => s
  | some l =>
    if l.state.ended then s
    else
      let s := if l.state = .admitting || l.state = .placing then s.undoLaunch l else s
      ((s.launchTo id st code arg).releaseBanks).dropFloor l.ctx

/-- R333: the record at HEAD of a context's ring has been taken. -/
def State.takeRecord (s : State) (ctx : Nat) : State :=
  let ring := (s.ctx ctx).sring
  match readCtl s ctx (ring + 16) 8 with
  | some h => storeCtl s ctx (ring + 16) 8 ((h + 1) % 2 ^ 64)
  | none => s

/-- R333: the record of a launch taken from its ring, once. -/
def State.takeLaunch (s : State) (l : Launch) : State :=
  if l.node.isSome || l.taken then s else (s.takeRecord l.ctx).updLaunch l.id fun l => { l with taken := true }

/-- R407: a launch whose acts do not stand yet is undone, and waits again. -/
def State.relaunch (s : State) (l : Launch) : State :=
  let s := s.undoLaunch l
  let stamp := if l.node.isSome then l.stamp else 0
  (s.updLaunch l.id fun l => { l with stamp := stamp, before := none, places := [], awaiting := [], barCounts := [], queues := [] }).launchTo
    l.id .waiting 0 0

/-- The launches that have been admitted and whose acts do not stand yet. -/
def State.unplaced (s : State) : List Launch := s.sch.launches.filter fun l => l.state == .admitting || l.state == .placing

/-- R338, R348: a launch cancelled: at once before it runs, and otherwise once its acts have been curtained. -/
def State.cancelLaunch (s : State) (id : Nat) : State :=
  match s.launch? id with
  | none => s
  | some l => match l.state with
    | .waiting => (s.takeLaunch l).endLaunch id .cancelled 0 0
    | .admitting => s.endLaunch id .cancelled 0 0
    | .placing => s.endLaunch id .cancelled 0 0
    | .running => if l.cancelling then s else s.updLaunch id fun l => { l with cancelling := true, cancelAt := some s.cycle }
    | _ => s

/-! ## The end of an act -/

/-- R275: the operand slots of an act freed, with the context recorded that last released them. -/
def State.freeSlots (s : State) (id : Nat) (last : Option Nat) : State :=
  let ts := s.fab.tiles.map fun p =>
    (p.1, { p.2 with slots := p.2.slots.map fun x =>
      if x.owner = some id then { x with owner := none, lastCtx := last } else x })
  { s with fab := { s.fab with tiles := ts } }

/-- R244, R346, R349: one act of a launch has completed; one that brings the count to 0 in the cycle of a cancel completes the launch. -/
def State.childDone (s : State) (launch : Nat) : State :=
  let s := s.updLaunch launch fun l => { l with count := l.count - 1 }
  match s.launch? launch with
  | none => s
  | some l =>
    if l.count = 0 && l.state == .running then
      s.endLaunch launch (if l.cancelling && l.cancelAt != some s.cycle then .cancelled else .complete) 0 0
    else s.writeLaunch l 0 0

/-- The channels that leave the region of an act are no more. -/
def State.dropChannels (s : State) (id : Nat) : State :=
  { s with fab := { s.fab with channels := s.fab.channels.filter (·.act ≠ id) } }

/-- An act context freed, its slots with it. -/
def State.freeAct (s : State) (id : Nat) : State :=
  let a := s.act id
  let s := s.lastInterval id
  let s := { s with sch := { s.sch with green := s.sch.green.filter (·.act.id ≠ id) } }
  (((((s.leaveFed id).orphan id).dropChannels id).freeSlots id (some a.ctx)).setAct (Act.empty id)).signal 3

/-- R161: the region of an act holds no token of it. -/
def State.regionEmpty (s : State) (id : Nat) : Bool :=
  (s.ownTiles id).all fun t => (s.tile t).outq == [] && (s.tile t).inbuf.all fun l => l == []

/-- R161: the last task of an act has committed. -/
def lastCommitted (s : State) (a : Act) : Bool :=
  !(s.ctxs.any fun c => c.2.tasks.any fun t => t.parts.contains a.id || (t.checks.any (·.1 == a.id)))

/-- R161 steps 3 and 4: a halted act is freed and counted once its issue buffer is empty, its last task has
committed and its region holds no token. -/
def State.reap (s : State) (id : Nat) : State :=
  let a := s.act id
  if a.life = .halted && a.issue = [] && lastCommitted s a && s.regionEmpty id then
    let s := s.freeAct id
    match a.launch with
    | some l => s.childDone l
    | none => s.releaseBanks
  else s

/-- Every halted act that may be freed is freed. -/
def State.reapAll (s : State) : State := s.acts.foldl (fun s p => s.reap p.1) s

end Sys2Proof.Machine
end

