-- ==== Sys2Proof/Machine/Strokes.lean ====
section
/-! DEFINITION. The times of bell strokes (R261, R414, R415), and whether one that a region hears has still to act (R71, R265). -/
namespace Sys2Proof.Machine

/-- R414: the strokes in a slot. -/
def strokesOf (p : PartSpec) : Nat := Nat.max 1 p.symbols

/-- R414: the slot length in fabric cycles. -/
def slotCycles (p : PartSpec) : Nat := 143750 * p.slotLen

/-- R414: the cycle of stroke `n`, counted from the first slot stroke at cycle `t`. [log 82 DEDUCED] -/
def strokeTime (p : PartSpec) (t n : Nat) : Nat :=
  t + n / strokesOf p * slotCycles p + n % strokesOf p * slotCycles p / strokesOf p

/-- R261: the skew of a die from the generator of CDW (0) or CDE (1). -/
def skewOf (gen die : Nat) : Nat := if gen = 0 then 48 * (die % 4) else 48 * (3 - die % 4)

/-- R415: the generator that a die follows. -/
def Bell.follows (b : Bell) (die : Nat) : Nat := if b.standby.contains die then (b.active + 1) % 2 else b.active

/-- R404: whether a control die has failed. -/
def State.cdFailed (s : State) (cd : Nat) : Bool := s.cdLost (if cd = 0 then 0 else 1)

/-- The strokes of a partition on which a die has acted. -/
def Bell.count (b : Bell) (part die : Nat) : Nat :=
  ((b.acted.find? fun x => x.1 == part && x.2.1 == die).map (·.2.2)).getD 0

/-- R414: the fabric cycle of a partition's first slot stroke at a die without skew, from cycle `now` on, where an edge of the selected
source came in cycle `e`. [log 82 DEDUCED] -/
def firstStroke (p : PartSpec) (e now : Nat) : Nat :=
  let t := e + p.offset * 23 / 10
  let l := slotCycles p
  if now ≤ t || l = 0 then t else t + (now - t + l - 1) / l * l

/-- The tile at the north-west corner of a region, whose quadrant the region counts as its own. -/
def RegionSt.corner (r : RegionSt) : TileId := { die := r.die, tile := tileIndex r.x0 r.y0 }

/-- R71, R134, R261, R415: a stroke that the region of an act hears has reached its die and has not acted, that of the standby where the
generator which the die follows has failed, or, without a bell, the interval boundary that stands in for it. -/
def State.strokeWaits (s : State) (id : Nat) : Bool :=
  let a := s.act id
  let b := s.ctl.bell
  match s.part? (s.ctx a.ctx).part with
  | none => false
  | some p =>
    let die := a.region.die
    let gen := b.follows die
    let other := (gen + 1) % 2
    if p.spec.slotLen = 0 then decide ((s.interval + 1) * 2300 ≤ s.cycle)
    else match assoc? p.id b.slots with
      | none => false
      | some t =>
        let due := strokeTime p.spec t (b.count p.id die)
        if !(s.cdFailed gen) then decide (due + skewOf gen die ≤ s.cycle)
        else !(s.cdFailed other) && !b.standby.contains die && decide (due + Nat.max (skewOf gen die + 16) (skewOf other die) ≤ s.cycle)

end Sys2Proof.Machine
end

