-- ==== Sys2Proof/Machine/Scene.lean ====
section
/-! DEFINITION. The SCENE group (R131 to R137), the passage of markers (R64), marks and cuts (R137, R373). -/
namespace Sys2Proof.Machine

/-- R137, R241: a firing of a source counted towards the mark period. -/
def Act.sourceFired (a : Act) : Act :=
  if a.region.period = 0 then a
  else if a.region.count + 1 = a.region.period then
    { a with region := { a.region with count := 0 }, markDue := a.markDue + 1 }
  else { a with region := { a.region with count := a.region.count + 1 } }

/-- R262: the next marker number taken. -/
def Act.nextMarker (a : Act) : Act := a.updRegion fun r => { r with marker := r.marker + 1 }

/-- R273: the structure argument of FAULTARG. -/
def structArg (str die tile unit off : Nat) : Dbl :=
  BitVec.ofNat 64 (2 ^ 63 + str % 8 * 2 ^ 60 + die % 4 * 2 ^ 57 + die / 4 % 2 * 2 ^ 59 + tile % 512 * 2 ^ 48
    + unit % 16 * 2 ^ 44 + off % 2 ^ 15)

/-- R259, R273: the lowest-indexed tile of the region whose words of a slot fail their parity. [log 81 DEDUCED] -/
def State.parityTile (s : State) (id k : Nat) : Option TileId :=
  argMin (fun t => t.tile) ((s.ownTiles id).filter fun t => (s.tile t).parity.any (·.1 == k))

/-- R187: the counters of the pipelines that name no input, when a scene becomes the one in force. -/
def State.enterScene (s : State) (id k : Nat) : State :=
  (s.ownTiles id).foldl (fun s t =>
    match s.cfg t k with
    | none => s
    | some c =>
      if c.has .pipe && c.inputsOf .pipe == [] then
        s.updTile t fun x =>
          let sc := (x.st.scenes[k]?).getD SceneSt.zero
          { x with st := { x.st with scenes := x.st.scenes.set k { sc with f := 0, ended := false, closes := [] } } }
      else s) s

/-- R133, R256: SCENE.RUN puts scene `k` in force. -/
def State.runScene (s : State) (id k : Nat) : State :=
  let a := s.act id
  let old := a.region.cur
  let els := s.elements id old
  let s := (s.enterValid id old).updAct id fun a =>
    let a := a.updSlot old fun sl => if sl.st = .inForce then { sl with st := .retiring } else sl
    let a := a.updSlot k fun sl => { sl with st := .inForce }
    { a with region := { a.region with cur := k, arm := false, tgt := 0, quiet := false },
             ends := if els = [] then a.ends else a.ends ++ [{ scene := old, num := none, tag := old, counts := false, elems := els, sinks := [] }] }
  (s.enterScene id k).settle id

/-- R132, R259: the words of a slot cleared in every tile of a region. -/
def State.clearTiles (s : State) (id k : Nat) : State :=
  (s.ownTiles id).foldl (fun s t => s.updTile t fun x =>
    { x with cfg := x.cfg.set k none, parity := x.parity.filter (·.1 ≠ k) }) s

/-- R259: a slot emptied in every tile of a region. -/
def State.emptySlot (s : State) (id k : Nat) : State :=
  (s.updAct id fun a => a.updSlot k fun sl => { sl with st := .empty, job := none }).clearTiles id k

/-- R132, R256: SCENE.LOAD of slot `k` from the image at `va`. A load of the slot that has begun in some tile stays begun. -/
def Act.startLoad (a : Act) (k : Nat) (va : Dbl) (no : Nat) : Act :=
  a.updSlot k fun sl =>
    { sl with
      st := if sl.st = .retiring then .retiring else .loading, error := none,
      job := some { image := va, no := no, begun := sl.st = .retiring && sl.job.any (·.begun) } }

/-- R265: an instruction that changes an armed swap waits for a stroke of its cycle, which does not see it. -/
def afterStroke (s : State) (f : State → State) : State := if s.strokeWaits s.me then s else f s

/-- R132, R265: SCENE.LOAD. -/
def execSceneLoad (a : Reg) (k : BitVec 2) (s : State) : Host.Outcome State Fault Refusal :=
  .next (afterStroke s fun s =>
    let r := s.cur.region
    let va := s.g a
    if r.cur = k.toNat || (r.arm && r.tgt == k.toNat) then s.trap 0x01 (wordArg (.sceneLoad a k))
    else if va.toNat % 64 ≠ 0 then s.trap 0x03 va
    else ({ s with eng := { s.eng with serial := s.eng.serial + 1 } }.updCur fun x =>
      x.startLoad k.toNat va s.eng.serial).retire)

/-- R133: what SCENE.WAIT and SCENE.RUN do first: wait for the load of the slot, and raise its error. -/
def afterLoad (s : State) (k : Nat) (f : State → State) : State :=
  let sl := s.cur.slot k
  if sl.job.isSome then s
  else match sl.error with
  | some (c, x) => (s.updCur fun a => a.updSlot k fun sl => { sl with error := none }).trap c x
  | none => f s

/-- R133: SCENE.WAIT. -/
def execSceneWait (k : BitVec 2) (s : State) : Host.Outcome State Fault Refusal :=
  .next (afterLoad s k.toNat State.retire)

/-- R134, R265: SCENE.SWAP. -/
def execSceneSwap (k : BitVec 2) (s : State) : Host.Outcome State Fault Refusal :=
  .next (afterStroke s fun s => (s.updCur fun a => a.updRegion fun r =>
    if r.cur = k.toNat then { r with arm := false, tgt := 0 } else { r with arm := true, tgt := k.toNat, armed := s.cycle }).retire)

/-- R92, R135: the port tiles of a region as a mask in PQ order. -/
def portMask (r : RegionSt) : Dbl :=
  (List.range 64).foldl (fun m k => if r.holds { die := r.die, tile := 256 + k } then m ||| BitVec.ofNat 64 (2 ^ k) else m) 0

/-- R135, R136: SCENE.GATE; a bit outside the region raises 0x12 with the mask. Opening ends the rest that a curtain has brought. [log 123 DEDUCED] -/
def execSceneGate (a : Reg) (o : Bool) (s : State) : Host.Outcome State Fault Refusal :=
  let m := s.g a
  .next (if m &&& ~~~(portMask s.cur.region) ≠ 0 then s.trap 0x12 m
    else (s.updCur fun x => x.updRegion fun r =>
      { r with gates := if o then r.gates ||| m else r.gates &&& ~~~m, quiet := r.quiet && !o }).retire)

/-- R136: every gate closed and a curtain inserted at every source; `reason` is that of R436. A region stopped for good (R378), in which
nothing passes, has no sink to wait for. [log 51 DEDUCED] -/
def State.startCurtain (s : State) (id reason : Nat) : State :=
  let r := (s.act id).region
  let stopped := (s.act id).noCut
  let s := s.updAct id fun a =>
    { a.nextMarker with
      region := { a.nextMarker.region with gates := 0 },
      curtain := some
        { num := r.marker, sinks := if stopped then [] else s.sinks id r.cur, reason := reason, gates := r.gates, began := s.cycle } }
  if stopped then s else s.insertMarker id 1 r.cur r.marker

/-- R136: SCENE.CURT: it starts its curtain, and completes once every sink has consumed it. -/
def sceneCurt (s : State) : State :=
  let s := if s.cur.curtain.isNone then s.startCurtain s.me 4 else s
  match s.cur.curtain with
  | some c => if c.sinks = [] then
      ((s.updCur fun a => { a with curtain := none, region := { a.region with quiet := true } }).traceAct 0x04 s.me 4 0).retire
    else s
  | none => s

/-- R136: SCENE.CURT. -/
def execSceneCurt (s : State) : Host.Outcome State Fault Refusal := .next (sceneCurt s)

/-- R137: SCENE.MARK. -/
def execSceneMark (a : Reg) (s : State) : Host.Outcome State Fault Refusal :=
  let v := s.g a
  .next (if v.toNat ≥ 2 ^ 32 then s.trap 0x01 (wordArg (.sceneMark a))
    else (s.updCur fun x => if v = 0 then { x with markDue := x.markDue + 1 }
      else x.updRegion fun r => { r with period := v.extractLsb' 0 32, count := 0 }).retire)

/-! ## Marks and cuts (R137, R373 to R375) -/

/-- R137: the state of an act as a mark records it. -/
def Act.record (a : Act) (num : Byte) : Cut :=
  { num := num, nth := a.marks, regs := a.regs, region := a.region, issue := a.issue, fences := a.fences, taskOpen := a.taskOpen, taskDone := a.taskDone, ctx := a.ctx,
    ctxStack := a.ctxStack, phases := a.phases }

/-- R137, R373, R375: one mark inserted at every source. What the act has performed by now, as far as a replay has come, stands before it. -/
def State.insertMark (s : State) (id : Nat) : State :=
  let a := s.act id
  let num := a.region.marker
  let scene := a.region.cur
  let sk := s.sinks id scene
  let s := s.updAct id fun a =>
    let b := { a.nextMarker with marks := a.marks + 1 }
    { b with
      markDue := a.markDue - 1, cutRun := some { num := num, sinks := sk, reason := 0, gates := 0, began := s.cycle },
      log := a.log.map fun e => { e with pre := e.used },
      cutNew := some (b.record num) }
  let s := (s.sources id scene).foldl (fun s p =>
    let pos := s.positions p.1
    s.updTile p.1 fun x => snapshot x pos p.2) s
  s.insertMarker id 2 scene num

/-- R373 to R375: the cut in progress becomes the last complete cut. -/
def State.completeCut (s : State) (id : Nat) (r : MarkerRun) : State :=
  let s := (s.ownTiles id).foldl (fun s t => s.updTile t fun x =>
    { x with shadow := some (x.shadowNew.getD x.st), shadowNew := none, shadowBad := false,
             replay := x.replay.filter fun e => e.2.1 == some r.num }) s
  let s := (s.ownTiles id).foldl (fun s t => match (s.tile t).shadow with
    | some sh => sh.pos.foldl (fun s p =>
        s.updQueue p.q fun x => { x with past := x.past.filter fun e => decide (p.fin ≤ e.1) }) s
    | none => s) s
  let s := s.updAct id fun a =>
    { a with cut := a.cutNew, cutNew := none, cutRun := none, log := a.log.filter (!·.pre), retried := [] }
  { s with fab := { s.fab with badShadows := s.fab.badShadows.filter (· ≠ id) } }.traceAct 0x03 id r.num.toNat 0

/-- R373: CUT_COMPLETE, once every sink has consumed the mark. -/
def execCutComplete (act : Nat) (s : State) : Host.Outcome State Fault Refusal :=
  .next (match (s.act act).cutRun with
    | some r => if r.sinks = [] then s.completeCut act r else s
    | none => s)

/-! ## Zero-slot circuits (R59) -/

/-- R59: whether the token at the head of an input came over a circuit without slots. -/
def State.zeroHead (s : State) (t : TileId) (i : Nat) : Bool :=
  match ((s.tile t).inbuf[i]?).getD [] with
  | b :: _ => b.credit && s.linkSlots ((s.ownerOf b.link.src).getD 0) b.link == 0
  | [] => false

/-- R59: the inputs among `is` at which a token stands for which a power token was reserved. -/
def State.zeroHeads (s : State) (t : TileId) (is : List Nat) : Nat := is.countP (s.zeroHead t)

/-- R59, R62: the region grants a firing its power token, or one was reserved. -/
def State.powered (s : State) (id : Nat) (t : TileId) (is : List Nat) : Bool :=
  decide (0 < s.zeroHeads t is) || s.hasPower id t

/-- R59, R62: the power token of a firing taken; of several reserved tokens all but one go back. -/
def State.spend (s : State) (id : Nat) (t : TileId) (is : List Nat) : State :=
  match s.zeroHeads t is with
  | 0 => s.takePower id
  | n + 1 => s.updAct (s.act id).regionRoot fun a => { a with tokens := a.tokens + n }

/-- R59: the power tokens reserved for tokens that take none go back. -/
def State.unreserve (s : State) (id : Nat) (t : TileId) (is : List Nat) : State :=
  match s.zeroHeads t is with
  | 0 => s
  | n => s.updAct (s.act id).regionRoot fun a => { a with tokens := a.tokens + n }

/-- R59: an element of act `id` has asked for a token of scene `sc` at one of its inputs `is`, which has not arrived; until then it
does nothing else under that scene, and so keeps its other inputs and its destinations' slots. -/
def State.pledged (s : State) (id : Nat) (t : TileId) (sc : Nat) (is : List Nat) : Bool :=
  let ours (l : Link) : Bool := l.scene == sc || !s.mine id l.src
  is.any fun i => (s.fab.requests.any fun r => r.1.dest == .input t i && ours r.1) ||
    match ((s.tile t).inbuf[i]?).getD [] with
    | b :: _ => decide (s.cycle < b.valid) && s.zeroHead t i && ours b.link
    | [] => false

/-! ## Passage of markers and closes (R64, R65) -/

/-- The marker or stream close at the head of an input. -/
def State.gateHead (s : State) (t : TileId) (i : Nat) : Option Token :=
  match s.head t i with
  | some b => if isMarker b || isClose b then some b.tok else none
  | none => none

/-- R64, R193, R197: the inputs at which a marker or close must stand to pass an element: its named inputs, and for a node in a
one-shot scene the input that another loaded slot's MM.SP word names as MP, where it is enabled. -/
def State.passInputs (s : State) (t : TileId) (c : TileCfg) (e : Element) : List Nat :=
  match e with
  | .node =>
    if nodeMode c.nodeWord < 2 then c.inputsOf .node
    else (List.range 4).filter fun i => i == nodeAP c.nodeWord || (c.enabled i && (List.range 4).any fun sc =>
      match s.cfg t sc with
      | some d => d.node && nodeMode d.nodeWord == 1 && nodeMP d.nodeWord == i
      | none => false)
  | e => c.inputsOf e

/-- Whether some element of a tile names an input in a scene. -/
def State.namedIn (s : State) (t : TileId) (sc i : Nat) : Bool :=
  match s.cfg t sc with
  | none => false
  | some c => ([.pipe, .node, .agen] : List Element).any fun e => c.has e && (s.passInputs t c e).contains i

/-- Whether an element of a tile names an input in a scene. -/
def State.names (s : State) (t : TileId) (e : Element) (sc i : Nat) : Bool :=
  match s.cfg t sc with
  | none => false
  | some c => c.has e && (s.passInputs t c e).contains i

/-- R64: the scene whose words govern the passage of a marker or close through an element from input `i`: its own. The curtain that a
node places on the output of the word it sets off (R197) may reach an input that its own scene does not name; the words
of the scene that names it govern it there. -/
def State.governs (s : State) (t : TileId) (e : Element) (i : Nat) : Option Nat :=
  match s.gateHead t i with
  | none => none
  | some k =>
    if s.names t e k.sc.toNat i then some k.sc.toNat
    else if k.mark && k.kind == 3 && !s.namedIn t k.sc.toNat i then (List.range 4).find? fun sc => s.names t e sc i
    else none

/-- R64: the heads of an element's named inputs, in a scene. -/
def heads (s : State) (t : TileId) (is : List Nat) : List (Option Token) := is.map (s.gateHead t)

/-- R64: heads that are all markers of one kind and number, or all closes. -/
def sameHeads (hs : List (Option Token)) : Bool :=
  match hs with
  | some k :: rest => rest.all fun h => match h with
      | some k' => k'.mark == k.mark && k'.kind == k.kind && (!k.mark || k'.arg == k.arg)
      | none => false
  | _ => false

/-- R64, R264: the scene under whose words an element passes what stands at its inputs: all those that the scene names show it. -/
def passScene (s : State) (t : TileId) (e : Element) : Option Nat :=
  (List.range 4).find? fun sc => (List.range 4).any (fun i => s.governs t e i == some sc) && match s.cfg t sc with
    | some c =>
      let hs := heads s t (s.passInputs t c e)
      -- R212: a close at a write stream ends its command, and passes nothing.
      sameHeads hs && (e != .agen || hs.all fun h => match h with
        | some k => k.mark
        | none => false)
    | none => false

/-- R64, R264, R377: two inputs of an element that the scenes of both heads name show markers of different kinds, or of one kind with
different numbers. [log 119 DEDUCED] -/
def State.markersDiffer (s : State) (t : TileId) (e : Element) : Bool :=
  (List.range 4).any fun i => (List.range 4).any fun j =>
    match s.gateHead t i, s.gateHead t j, s.governs t e i, s.governs t e j with
    | some x, some y, some a, some b =>
      s.names t e a j && s.names t e b i && x.mark && y.mark && (x.kind != y.kind || x.arg != y.arg)
    | _, _, _, _ => false

/-- R64, R212: whether an element's firing slot is free in this cycle; that of the write side of a port tile is its inputs'. -/
def slotFree (s : State) (t : TileId) (e : Element) : Bool :=
  match e with
  | .pipe => decide ((s.tile t).pipeNext ≤ s.cycle)
  | .node => decide ((s.tile t).nodeNext ≤ s.cycle)
  | .agen => (List.range 4).all fun i => decide (((s.tile t).portNext[i]?).getD 0 ≤ s.cycle)

/-- The cycle in which an element places a marker that it passes in this cycle: behind its earlier outputs. -/
def passDue (s : State) (t : TileId) (e : Element) (o : Nat) : Nat :=
  let base := match e with
    | .pipe => s.cycle + 6
    | .node => s.cycle + 1
    | .agen => s.cycle
  (s.tile t).outq.foldl (fun n p => if p.out = o then Nat.max n (p.due + 1) else n) base

/-- R61, R64: the firing slot of an element taken for this cycle. -/
def Tile.busyFor (x : Tile) (cycle : Nat) (e : Element) : Tile :=
  match e with
  | .pipe => { x with pipeNext := cycle + 1 }
  | .node => { x with nodeNext := cycle + 1 }
  | .agen => { x with portNext := List.replicate 4 (cycle + 1) ++ x.portNext.drop 4 }

/-- R374: a token that a region entry delivers is copied while a mark is in flight, with the mark's number where it comes behind it. -/
def State.deliver (s : State) (id : Nat) (t : TileId) (i : Nat) : State :=
  match s.head t i, (s.act id).cutRun with
  | some b, some r =>
    if b.credit && !s.mine id b.link.src then
      let ahead := (((s.tile t).inbuf[i]?).getD []).any fun m => isMarker m && m.tok.kind == 2 && m.tok.arg == r.num
      s.updTile t fun x => { x with replay := x.replay ++ [(i, if ahead then none else some r.num, b.tok)] }
    else s
  | _, _ => s

/-- The heads of several inputs consumed by an element of act `id`. -/
def State.consumeAll (s : State) (id : Nat) (t : TileId) (is : List Nat) : State :=
  is.foldl (fun s i => (s.deliver id t i).consume t i) s

/-- R64, R194, R212: one marker or stream close passes an element under the words `c` of scene `scene`; `none` while a
destination has no credit. -/
def State.pass (s : State) (id : Nat) (t : TileId) (e : Element) (scene : Nat) (c : TileCfg) (tok : Token) : Option State :=
  let marker := tok.mark
  let outs := if e = .agen || (e = .node && !marker) then [] else c.outputsOf e
  let outs := if marker then outs.filter fun o => !(s.ownBranches id t o scene).isEmpty else outs
  let ok := outs.all fun o =>
    if marker then (s.ownBranches id t o scene).all fun b => s.canPlace id b.1 else s.ready id t o scene 1
  if !ok || s.pledged id t scene (s.passInputs t c e) then none
  else
    let s := outs.foldl (fun s o =>
      if marker then (s.ownBranches id t o scene).foldl (fun s b => s.takeCredit id b.1) s
      else s.takeAll id t o scene 1) s
    let s := outs.foldl (fun s o =>
      let p : PendingOut := { due := passDue s t e o, out := o, scene := scene, tok := tok, paid := true }
      s.updTile t fun x => { x with outq := x.outq ++ [p] }) s
    let is := s.passInputs t c e
    let s := (s.unreserve id t is).consumeAll id t is
    let pos := s.positions t
    let s := s.updTile t fun x =>
      (if marker then localAction x pos e tok.kind.toNat tok.sc.toNat else x).busyFor s.cycle e
    let s := if marker && tok.sc.toNat = scene then s.updAct id fun a => a.passed t e tok.kind.toNat scene tok.arg else s
    some ((s.settle id).moved id)

/-- R65: a scale token at the head of an input of an element that is not scale-aware: forwarded on every named
destination. -/
def State.forwardScale (s : State) (id : Nat) (t : TileId) (i : Nat) (c : TileCfg) (b : BufTok) : State :=
  let scene := b.tok.sc.toNat
  let outs := c.outputsOf .pipe
  if !(outs.all fun o => s.ready id t o scene 1) then s
  else
    let s := outs.foldl (fun s o =>
      let p : PendingOut := { due := passDue s t .pipe o, out := o, scene := scene, tok := b.tok, paid := true }
      (s.takeAll id t o scene 1).updTile t fun x => { x with outq := x.outq ++ [p] }) s
    ((((s.unreserve id t [i]).deliver id t i).consume t i).settle id).moved id

end Sys2Proof.Machine
end

