-- ==== Sys2Proof/Machine/Tasks.lean ====
section
/-! DEFINITION. The TASK group and HALT (R146, R147, R160, R161), and the two steps of a commit with the aborts it
causes (R148, R297 to R300). -/
namespace Sys2Proof.Machine

/-! ## TASK.STAMP, TASK.DONE and HALT -/

/-- R148: the state after an instruction whose act then takes its task checkpoint. -/
def Did.endCheckpoint : Did → State
  | .done s _ => s.retire.takeCheckpoint s.me
  | .wait s => s
  | .trap s c a => s.trap c a

/-- R376: the logged outcome of a TASK instruction: it changes the act and opens or ends no task afresh. [log 31 DEDUCED] -/
def Act.replayTask (a : Act) (opens : Option Nat) : Act :=
  match opens with
  | some n => { a with prevStamp := a.lastStamp, taskOpen := true, taskDone := false, regs := { a.regs with stamp := BitVec.ofNat 64 n } }
  | none => { a with prevStamp := a.lastStamp, taskOpen := false, taskDone := true }

/-- R146, R296: whether TASK.STAMP refuses a stamp. -/
def stampRefused (s : State) (n : Nat) : Bool := stampTaken s.curCtx n || decide (n ≤ s.cur.lastStamp)

/-- R146, R296: TASK.STAMP. -/
def execTaskStamp (a : Reg) (s : State) : Host.Outcome State Fault Refusal :=
  let n := s.g a
  .next ((withLog s (fun s v => .done (s.updCur (·.replayTask (some v.toNat))) v) fun s =>
    if stampRefused s n.toNat then .trap s 0x22 n
    else .done ((s.endPart s.me).openTask s.me n.toNat) n).endCheckpoint)

/-- R146: TASK.DONE. -/
def execTaskDone (s : State) : Host.Outcome State Fault Refusal :=
  .next ((withLog s (fun s v => .done (s.updCur (·.replayTask none)) v) fun s => .done ((s.endPart s.me).updCur fun a => { a with taskDone := true }) 0).end)

/-- R161: the act halts past its instruction. -/
def Did.halt : Did → State
  | .done s _ => (s.retire.updCur fun a => { a with life := .halted }).reap s.me
  | .wait s => s
  | .trap s c a => s.trap c a

/-- R161: HALT. -/
def execHalt (s : State) : Host.Outcome State Fault Refusal :=
  .next ((withLog s (fun s v => .done (s.updCur (·.replayTask none)) v) fun s => .done (s.endPart s.me) 0).halt)

/-! ## TASK.SPAWN (R147, R236) -/

/-- R15: the block of an interior tile. -/
def blockOf (x y : Nat) : Nat := y / 4 * 4 + x / 4

/-- R147: the sub-rectangle of a spawn: X, Y, W and H. -/
structure SpawnRect where
  x : Nat
  y : Nat
  w : Nat
  h : Nat
deriving DecidableEq, Repr

/-- R353: the rectangle that a context holds on a die, as X0, Y0, W and H. -/
def rectOf (c : Ctx) (die : Nat) : Option (Nat × Nat × Nat × Nat) :=
  let w := (c.rects[die]?).getD 0
  if w.getLsbD 31 then
    some ((w.extractLsb' 12 4).toNat, (w.extractLsb' 8 4).toNat, (w.extractLsb' 4 4).toNat + 1, (w.extractLsb' 0 4).toNat + 1)
  else none

/-- Whether two rectangles share a tile. -/
def rectsMeet (a b : Nat × Nat × Nat × Nat) : Bool :=
  decide (a.1 < b.1 + b.2.2.1) && decide (b.1 < a.1 + a.2.2.1) && decide (a.2.1 < b.2.1 + b.2.2.2)
    && decide (b.2.1 < a.2.1 + a.2.2.2)

/-- Whether the first rectangle lies within the second. -/
def rectWithin (a b : Nat × Nat × Nat × Nat) : Bool :=
  decide (b.1 ≤ a.1) && decide (a.1 + a.2.2.1 ≤ b.1 + b.2.2.1) && decide (b.2.1 ≤ a.2.1)
    && decide (a.2.1 + a.2.2.2 ≤ b.2.1 + b.2.2.2)

/-- The physical rectangle of a region. -/
def RegionSt.rect (r : RegionSt) : Nat × Nat × Nat × Nat := (r.x0, r.y0, r.w, r.h)

/-- R147: the acts that have spawned an act, one from another, and itself. -/
def State.spawnLine (s : State) : Nat → Nat → List Nat
  | 0, id => [id]
  | n + 1, id => id :: match (s.act id).parent with
    | some p => s.spawnLine n p
    | none => []

/-- R147, R356: whether a sub-rectangle leaves the spawner's region, has a zero side, overlaps the rectangle of a
running spawned act, or uses a tile that the context has moved to a child. The spawner and those that it comes from, which all run on
tiles around the sub-rectangle, do not count. [log 126 DEDUCED] -/
def spawnOutside (s : State) (a : Act) (r : SpawnRect) : Bool :=
  let g := a.region
  let box := (g.x0 + r.x, g.y0 + r.y, r.w, r.h)
  r.w == 0 || r.h == 0 || !(rectWithin box g.rect)
    || (s.acts.any fun p => p.2.life != .free && p.2.parent.isSome && !((s.spawnLine s.acts.length a.id).contains p.1) && p.2.region.die == g.die
          && rectsMeet box p.2.region.rect)
    || (s.ctxs.any fun c => c.2.parent == some a.ctx && !c.2.revoked && match rectOf c.2 g.die with
          | some q => rectsMeet box q
          | none => false)

/-- The free act contexts of a prompter. -/
def freeSlots (s : State) (die blk : Nat) : List Nat :=
  (List.range 4).filter fun k => (s.act (mkActId die blk k)).life == .free
    && !(s.pendingPlaces.any fun p => placeAct p == mkActId die blk k)

/-- R147: the act that a spawn creates on context `id`. -/
def spawned (a : Act) (id : Nat) (r : SpawnRect) (entry arg : Dbl) (n : Nat) : Act :=
  let g := a.region
  let reg : RegionSt :=
    { RegionSt.zero with
      die := g.die, x0 := g.x0 + r.x, y0 := g.y0 + r.y, w := r.w, h := r.h, bsel := g.bsel, cur := g.cur,
      slots := g.slots.map fun sl => { sl with job := none, error := none, ends := 0 } }
  let reg := { reg with gates := g.gates &&& portMask reg }
  { Act.empty id with
      life := .running, ctx := a.ctx, prevStamp := n - 1, pflim := a.pflim, launch := a.launch, vreg := a.vreg,
      parent := some a.id, root := some a.regionRoot, window := a.window, region := reg,
      regs := ({ Regs.zero with acpc := entry &&& ~~~(3 : Dbl) }).writeG 1 arg }

/-- R373: the launch point counts as cut 0: the act is recorded, and every tile of the region holds it in its shadow. -/
def State.launchPoint (s : State) (id : Nat) : State :=
  let s := (s.ownTiles id).foldl (fun s t =>
    let pos := s.positions t
    s.updTile t fun x => { x with shadow := some { x.st with pos := pos }, shadowNew := none, replay := [] }) s
  s.updAct id fun a => { a with cut := some (a.record 0) }

/-- R147: the spawn itself, on act context `id`. -/
def State.spawn (s : State) (id : Nat) (r : SpawnRect) (n entry arg : Dbl) : State :=
  let s := s.setAct (spawned s.cur id r entry arg n.toNat)
  let s := ((s.openTask id n.toNat).takeCheckpoint id).launchPoint id
  match s.cur.launch with
  | some k =>
    let s := s.updLaunch k fun l => { l with count := l.count + 1 }
    match s.launch? k with
    | some l => s.writeLaunch l 0 0
    | none => s
  | none => s

/-- R147: TASK.SPAWN past its checks on the task and the descriptor's address. A rectangle's 0x12 names the descriptor's whole double. [log 126 DEDUCED] -/
def spawnFrom (i : Instr) (s : State) (d : Dbl) : Did :=
  match promptAccess s d 32 .read with
  | (.wait, s) => .wait s
  | (.fault c x, s) => .trap s c x
  | (.ok pa, s) =>
    let s := s.recordPrompter s.me false d 32
    let n : Dbl := BitVec.ofNat 64 (s.mem.readN pa 8)
    let entry : Dbl := BitVec.ofNat 64 (s.mem.readN (pa + 8) 8)
    let w := s.mem.readN (pa + 16) 8
    let arg : Dbl := BitVec.ofNat 64 (s.mem.readN (pa + 24) 8)
    let r : SpawnRect := { x := w % 256, y := w / 2 ^ 8 % 256, w := w / 2 ^ 16 % 256, h := w / 2 ^ 24 % 256 }
    if w / 2 ^ 32 ≠ 0 then .trap s 0x01 (wordArg i)
    else if spawnOutside s s.cur r then .trap s 0x12 (BitVec.ofNat 64 w)
    else if stampTaken s.curCtx n.toNat || decide (n.toNat ≤ s.cur.regs.stamp.toNat) then .trap s 0x22 n
    else
      let g := s.cur.region
      let blk := blockOf (g.x0 + r.x) (g.y0 + r.y)
      let fs := freeSlots s g.die blk
      match fs[Config.freeNat s.fresh % fs.length]? with
      | none => .wait s
      | some k => .done ({ s with fresh := s.fresh + 1 }.spawn (mkActId g.die blk k) r n entry arg) 0

/-- R147, R149: TASK.SPAWN. [log 28 DEDUCED] -/
def execTaskSpawn (a : Reg) (s : State) : Host.Outcome State Fault Refusal :=
  let i : Instr := .taskSpawn a
  .next ((needTask i s fun s => whenOldest s fun s =>
    withLog s (fun s v => .done s v) fun s => spawnFrom i s (s.g a)).end)

/-! ## Becoming oldest (R298 step 1) -/

/-- R427: the granule of memory at an address poisoned. -/
def State.poisonAt (s : State) (pa : Nat) : State :=
  if pa / 2 ^ 40 < 8 then { s with fab := { s.fab with hbmPoison := s.fab.hbmPoison.insert (pa / 32) } }
  else { s with fab := { s.fab with lpPoison := s.fab.lpPoison.insert (pa / 8) } }

/-- R301, R426: the staged bytes of a line, stored from its physical address; a granule that could not be corrected stays poisoned. -/
def State.publishLine (s : State) (pa : Nat) (l : WingLine) : State :=
  l.bad.foldl (fun s g => s.poisonAt (pa + 8 * g)) (l.bytes.foldl (fun s b => s.store (pa + b.1) 1 b.2.toNat) s)

/-- R281, R282, R301: the translation of a staged line, by the slice of the die in whose wings it stands. -/
def lineXlate (s : State) (ctx : Nat) (l : WingLine) : Xlate × State := translate s l.die ctx (BitVec.ofNat 64 (64 * l.line)) .write

/-- R281, R282, R385: the translation of a deferred atomic, by the slice of the die of its act. -/
def deferredXlate (s : State) (ctx : Nat) (r : AtomReq) : Xlate × State := translate s r.srcDie ctx r.va .write

/-- R301, R282: where a staged line or a deferred atomic goes; `none` for one that no mapping allows to be stored. -/
def Xlate.addr (x : Xlate) : Option Nat :=
  match x with
  | .ok pa => some pa
  | _ => none

/-- R298, R305, R385: a deferred atomic sent to the engine of its line's home, where its page lies now. [log 30 DEDUCED] -/
def State.sendDeferred (s : State) (ctx : Nat) (r : AtomReq) : State :=
  let x := deferredXlate s ctx r
  match x.1.addr with
  | none => s
  | some pa =>
    let q := { r with pa := pa, die := (homeOf pa).1, blk := (homeOf pa).2 }
    { x.2 with eng := { x.2.eng with atoms := x.2.eng.atoms ++ [q] } }

/-- R298 step 1: the staged lines of a task published as one step, and its deferred atomics sent after them. [log 30 DEDUCED] -/
def State.stepOne (s : State) (ctx : Nat) (t : Task) : State :=
  let s := t.lines.foldl (fun s l =>
    let x := lineXlate s ctx l
    match x.1.addr with
    | some pa => x.2.publishLine pa l
    | none => s) s
  let s := t.deferred.foldl (fun s r => s.sendDeferred ctx r) s
  s.updTask ctx t.stamp fun t => { t with step1 := true, lines := [], deferred := [] }

/-- R18, R298: what step 1 needs of a translation: the page is present, and a link leads to its memory. -/
def State.mayPublish (s : State) (x : Xlate) : Bool :=
  match x with
  | .ok pa => s.fabricReaches pa
  | .miss => false
  | .fault _ _ => true

/-- R298: a staged line or a deferred atomic whose page is not present makes step 1 wait for it. -/
def linesPresent (s : State) (ctx : Nat) (t : Task) : Bool :=
  (t.lines.all fun l => s.mayPublish (lineXlate s ctx l).1) && t.deferred.all fun r => s.mayPublish (deferredXlate s ctx r).1

/-- R227, R298: the range scoreboard holds none of the staged lines. -/
def linesFree (s : State) (ctx : Nat) (t : Task) : Bool :=
  t.lines.all fun l => !(scoreBlocks s ctx false true (64 * l.line) (64 * l.line + 63))

/-- The page request for the first staged line, or deferred atomic, whose page is not present. -/
def State.requestLine (s : State) (ctx : Nat) (t : Task) : State :=
  match t.lines.find? fun l => (lineXlate s ctx l).1 == .miss with
  | some l => (accessAct s l.act ctx (BitVec.ofNat 64 (64 * l.line)) .write).2
  | none => match t.deferred.find? fun r => (deferredXlate s ctx r).1 == .miss with
    | some r => (accessAct s r.act ctx r.va .write).2
    | none => s

/-- R298: TASK_BECOMES_OLDEST. -/
def execTaskBecomesOldest (ctx : Nat) (s : State) : Host.Outcome State Fault Refusal :=
  .next (match (s.ctx ctx).tasks.find? fun t => !t.step1 && oldest s ctx t with
    | none => s
    | some t => if !(linesFree s ctx t) then s
      else if linesPresent s ctx t then s.stepOne ctx t else s.requestLine ctx t)

/-! ## Aborts (R148, R299) -/

/-- R299: the bank lines of a scratch range: for each bank of its acts' windows, the bank and its lines. -/
def scratchLines (s : State) (r : Range) : List (Nat × Nat × Nat) :=
  (r.act :: r.also).flatMap fun id => (List.range (s.act id).window.length).filterMap fun i =>
    let lo := Nat.max r.lo (512 * i)
    let hi := Nat.min r.hi (512 * i + 511)
    match (s.act id).window[i]? with
    | some b => if lo ≤ hi then some (b, lo - 512 * i, hi - 512 * i) else none
    | none => none

/-- R299: two ranges overlap. -/
def rangesMeet (s : State) (a b : Range) : Bool :=
  if a.space != b.space then false
  else if !a.space then decide (a.lo ≤ b.hi) && decide (b.lo ≤ a.hi)
  else (scratchLines s a).any fun x => (scratchLines s b).any fun y =>
    x.1 == y.1 && decide (x.2.1 ≤ y.2.2) && decide (y.2.1 ≤ x.2.2)

/-- R298: a dirty range of `t` overlaps a read range of `u`. -/
def conflicts (s : State) (t u : Task) : Bool :=
  (t.ranges ++ t.accs).any fun a => a.write && (u.ranges ++ u.accs).any fun b => !b.write && rangesMeet s a b

/-- R148, R299: an act that has halted, or that a trap has stopped, runs again. -/
def Life.rerun (l : Life) : Life :=
  match l with
  | .halted => .running
  | .trapped _ => .running
  | l => l

/-- R148, R299: an act returns to the checkpoint of a task that re-runs. A SCENE.CURT that waits is abandoned. [log 29 DEDUCED, 54 DEDUCED] -/
def Act.rerun (a : Act) (ctx stamp : Nat) (c : Checkpoint) : Act :=
  { a with
    life := a.life.rerun, fenceS := none,
    ctx := ctx, ctxStack := c.ctxStack, taskOpen := true, taskDone := false, prevStamp := stamp, loopBuf := [], wingStall := false, seqw := none,
    evtw := none, curtain := match a.curtain with
      | some m => if m.reason = 4 then none else some m
      | none => none,
    regs := { a.regs with acpc := c.acpc, g := c.g, c := c.c, lbase := c.lbase, lb := c.lb, lc := c.lc,
                          stamp := BitVec.ofNat 64 stamp } }

/-- R148, R299: what an act holds of a task discarded: the commands in its issue buffer, those that a cut recorded there, and the effects
in its replay log, whose place the re-run takes. -/
def Act.dropHeld (a : Act) (ctx stamp : Nat) : Act :=
  let issue (l : List IssueEntry) : List IssueEntry := l.filter fun e => !(e.ctx == ctx && e.stamp == stamp)
  let keep (e : LogEntry) : Bool := !(e.ctx == ctx && e.stamp == stamp)
  let cut (c : Option Cut) : Option Cut := c.map fun c => { c with issue := issue c.issue }
  { a with
    issue := issue a.issue, cut := cut a.cut, cutNew := cut a.cutNew,
    log := a.log.filter keep, replay := a.replay && a.log.any fun e => keep e && !e.used }

/-- R148: what the acts hold of a task is discarded. -/
def State.dropHeld (s : State) (ctx stamp : Nat) : State :=
  let acts := s.acts.map fun p => (p.1, p.2.dropHeld ctx stamp)
  { s with acts := acts }

/-- R299: an act that is switched out re-runs its task once it is restored. -/
def State.wakeSaved (s : State) (id : Nat) : State :=
  let gs := s.sch.green.map fun g => if g.act.id = id then { g with act := { g.act with life := g.act.life.rerun } } else g
  { s with sch := { s.sch with green := gs } }

/-- R299: a task that an aborted task's act opened later goes with it, and its stamp is released. -/
def State.dropLater (s : State) (ctx : Nat) (v : Task) (by_ : Nat) : State :=
  let s := (s.updCtx ctx fun c => { c with tasks := c.tasks.filter fun t => t.no != v.no }).dropHeld ctx v.stamp
  (s.count ctx 0x0030 1).trace 0x09 ctx (actDie v.act) v.act v.stamp by_

/-- R299: the uncommitted tasks that the acts of a task opened after it. [log 29 DEDUCED] -/
def laterTasks (s : State) (u : Task) : List (Nat × Task) :=
  s.ctxs.flatMap fun c => (c.2.tasks.filter fun v => decide (u.no < v.no) && u.checks.any (·.1 == v.act)).map fun v => (c.1, v)

/-- R148, R299: task `u` of domain `ctx` aborted by the commit of stamp `by_`, and run again. -/
def State.abort (s : State) (ctx : Nat) (u : Task) (by_ : Nat) : State :=
  let s := (laterTasks s u).foldl (fun s v => s.dropLater v.1 v.2 by_) s
  let s := s.dropHeld ctx u.stamp
  let s := s.updTask ctx u.stamp fun u =>
    { u with lines := [], deferred := [], ranges := [], accs := [], aborts := u.aborts + 1, parts := u.checks.map (·.1) }
  let s := u.checks.foldl (fun s p => (s.updAct p.1 fun a => a.rerun ctx u.stamp p.2).wakeSaved p.1) s
  (s.count ctx 0x0030 1).trace 0x09 ctx (actDie u.act) u.act u.stamp by_

/-! ## The range log (R289, R291) -/

/-- R288: the prompter's ranges stand beside the log. -/
def Range.logged (r : Range) : Bool := r.src < 64 || 128 ≤ r.src

/-- R291: the ranges in the log of a domain. -/
def logSize (ts : List Task) : Nat := (ts.map fun t => t.ranges.countP Range.logged).foldl (· + ·) 0

/-- R291: a range that spans two of one kind and space; the offsets of scratch are those of both windows. -/
def Range.join (r x : Range) : Range :=
  { x with lo := Nat.min x.lo r.lo, hi := Nat.max x.hi r.hi, also := x.also ++ (r.act :: r.also).filter fun a => a != x.act && !x.also.contains a }

/-- R291: the logged ranges of a task merged, one of each kind and space. -/
def mergeRanges : List Range → List Range → List Range
  | [], out => out
  | r :: l, out =>
    let same (x : Range) : Bool :=
      x.logged && x.write == r.write && x.space == r.space
    if r.logged && out.any same then
      mergeRanges l (out.map fun x => if same x then r.join x else x)
    else mergeRanges l (out ++ [r])

/-- R289, R291: one accumulator of task `no` deposited in its domain's log; it waits where that is still full once the task's ranges are
merged. -/
def depositOne (ts : List Task) (no : Nat) (r : Range) : List Task :=
  let put (ts : List Task) : List Task := ts.map fun t =>
    if t.no = no then { t with ranges := t.ranges ++ [{ r with due := false }], accs := t.accs.erase r } else t
  let wait (ts : List Task) : List Task := ts.map fun t =>
    if t.no = no then { t with accs := t.accs.map fun x => if x = r then { x with due := true } else x } else t
  if logSize ts < 1024 then put ts
  else
    let ts := ts.map fun t => if t.no = no then { t with ranges := mergeRanges t.ranges [] } else t
    if logSize ts < 1024 then put ts else wait ts

/-- The accumulators of a domain that satisfy `f` deposited. -/
def depositAll (ts : List Task) (f : Task → Range → Bool) : List Task :=
  (ts.flatMap fun t => (t.accs.filter (f t)).map fun r => (t.no, r)).foldl (fun ts p => depositOne ts p.1 p.2) ts

/-- R289: the accumulators that satisfy `f` deposited, in every domain. -/
def State.deposit (s : State) (f : Nat → Task → Range → Bool) : State :=
  let cs := s.ctxs.map fun p => (p.1, { p.2 with tasks := depositAll p.2.tasks (f p.1) })
  { s with ctxs := cs }

/-! ## Commit (R298 step 2) -/

/-- R298: a task that may commit: oldest, past step 1, ended by every act that shares it, its atomics performed. -/
def mayCommit (s : State) (ctx : Nat) (t : Task) : Bool :=
  t.step1 && t.parts == [] && oldest s ctx t
    && !(s.eng.atoms.any fun r => r.ctx == ctx && r.stamp == t.stamp)

/-- R298 step 2. -/
def State.commit (s : State) (ctx : Nat) (t : Task) : State :=
  let us := (s.ctx ctx).tasks.filter fun u => decide (t.stamp < u.stamp) && conflicts s t u
  let s := us.foldl (fun s u =>
    if (s.ctx ctx).tasks.any (·.no == u.no) then s.abort ctx u t.stamp else s) s
  let s := s.updCtx ctx fun c => { c with tasks := c.tasks.filter fun v => v.no != t.no, committed := t.stamp }
  -- R291: the log has room for the deposits that wait.
  let s := s.deposit fun _ _ r => r.due
  let s := (s.count ctx 0x0032 1).trace 0x08 ctx (actDie t.act) t.act t.stamp t.aborts
  s.reapAll

/-- R298: TASK_COMMIT. -/
def execTaskCommit (ctx : Nat) (s : State) : Host.Outcome State Fault Refusal :=
  .next (match (s.ctx ctx).tasks.find? (mayCommit s ctx) with
    | none => s
    | some t => s.commit ctx t)

end Sys2Proof.Machine
end

