-- ==== Sys2Proof/Machine/Contexts.lean ====
section
/-! DEFINITION. The CTX group and the revocation of a subtree (R117, R158, R159, R352 to R359, R362). -/
namespace Sys2Proof.Machine

/-! ## Descriptors -/

/-- R158: `n` blocks of 64 bytes of a descriptor, read by the prompter. -/
def readBlocks : Nat → Dbl → (Nat → Dbl) → Nat → State → (State → (Nat → Dbl) → Did) → Did
  | 0, _, w, _, s, f => f s w
  | n + 1, ea, w, k, s, f =>
    match promptAccess s ea 64 .read with
    | (.wait, s) => .wait s
    | (.fault c x, s) => .trap s c x
    | (.ok pa, s) =>
      let m := s.mem
      let w' : Nat → Dbl := fun j => if 8 * k ≤ j && j < 8 * k + 8 then BitVec.ofNat 64 (m.readN (pa + 8 * (j - 8 * k)) 8) else w j
      readBlocks n (ea + 64) w' (k + 1) (s.recordPrompter s.me false ea 64) f

/-- R353: rectangle word `d` of a descriptor whose rectangles begin at double `k`. -/
def rectWord (w : Nat → Dbl) (k d : Nat) : W32 := (w (k + d / 2)).extractLsb' (32 * (d % 2)) 32

/-- R353: a rectangle word with no reserved bit set. -/
def rectClean (r : W32) : Bool := if r.getLsbD 31 then r.extractLsb' 16 15 == 0 else r == 0

/-- R353: the rectangle of a word. -/
def rectOfWord (r : W32) : Option (Nat × Nat × Nat × Nat) :=
  if r.getLsbD 31 then
    some ((r.extractLsb' 12 4).toNat, (r.extractLsb' 8 4).toNat, (r.extractLsb' 4 4).toNat + 1, (r.extractLsb' 0 4).toNat + 1)
  else none

/-- R352: a context descriptor with no reserved bit set. -/
def descClean (w : Nat → Dbl) : Bool :=
  !((w 0).getLsbD 10) && ((w 1).extractLsb' 48 16 == 0) && ((w 2).extractLsb' 49 15 == 0) && !((w 9).getLsbD 4)
    && (List.range 8).all fun d => rectClean (rectWord w 12 d)

/-- The children of a context that hold its resources. -/
def State.children (s : State) (c : Nat) : List Ctx :=
  (s.ctxs.filter fun p => p.2.parent == some c && !p.2.revoked).map (·.2)

/-- R354, R356: the floor that a context can still pass on. -/
def floorLeft (s : State) (c : Nat) : Int :=
  ((s.ctx c).floor : Int) - (s.children c).foldl (fun n x => n + (x.floor : Int)) 0

/-- R354: whether a rectangle on die `d` may become that of child `child` of context `c`: within the context's own,
and on no tile of another child or of a running act of the context. `old` is the child's present rectangle. -/
def rectAllowed (s : State) (c d : Nat) (child : Option Nat) (r : Nat × Nat × Nat × Nat) : Bool :=
  decide (r.1 + r.2.2.1 ≤ 16) && decide (r.2.1 + r.2.2.2 ≤ 16)
  && (match rectOf (s.ctx c) d with
      | some p => rectWithin r p
      | none => false)
  && (s.children c).all (fun x => some x.id == child || match rectOf x d with
      | some q => !(rectsMeet r q)
      | none => true)
  && s.acts.all fun p => !(p.2.life != .free && p.2.ctx == c && p.2.region.die == d && rectsMeet r p.2.region.rect)

/-- R354 check 3: whether the resources of a descriptor are a subset of the current context's. -/
def subsetOk (s : State) (c : Nat) (w : Nat → Dbl) : Bool :=
  let x := s.ctx c
  decide ((w 1).toNat < x.fl) && (w 3 &&& ~~~x.qmask == 0)
    && ((List.range 8).all fun d => match rectOfWord (rectWord w 12 d) with
        | some r => rectAllowed s c d none r
        | none => true)
    && decide (bits (w 11) 0 32 ≤ x.portion) && decide ((bits (w 11) 32 32 : Int) ≤ floorLeft s c)
    && decide (bits (w 0) 0 10 ≤ x.pflim) && (w 10 == 0) && !((w 0).getLsbD 11)

/-- R352, R354, R359: a context with the values of a descriptor, below context `p`, or below its partition. -/
def ctxOfDesc (id : Nat) (parent : Option Nat) (part depth : Nat) (pb pl pflim : Nat) (w : Nat → Dbl) : Ctx :=
  let mbase := bits (w 1) 0 48
  let mbound := bits (w 2) 0 49
  let lim := bits (w 0) 0 10
  { Ctx.empty id with
    parent := parent, part := part, depth := depth, ptroot := (w 0).toNat / 4096 * 4096, fpol := (w 0).getLsbD 11,
    pflim := if lim = 0 then pflim else lim, mbase := mbase, mbound := mbound, qmask := w 3,
    tmask := w 7 ++ w 6 ++ w 5 ++ w 4, tvec := w 8 &&& ~~~(3 : Dbl), rring := w 9 &&& ~~~(0x1F : Dbl), evb := bits (w 9) 0 4,
    sring := w 10, portion := bits (w 11) 0 32, floor := bits (w 11) 32 32,
    rects := Vector.ofFn fun d : Fin 8 => rectWord w 12 d.val,
    fb := pb + mbase, fl := Nat.min mbound (pl - mbase), balance := bits (w 11) 0 32 }

/-- R354: the identifiers that no context holds; which of them a new context takes is a free value. -/
def freeCtxIds (s : State) : List Nat := (List.range 4096).filter fun i => !(s.ctxs.any fun p => p.1 == i)

/-- A negative status. -/
def negStatus (n : Nat) : Dbl := 0 - BitVec.ofNat 64 n

/-- R354: CTX.NEW past the reading of its descriptor. -/
def newFrom (i : Instr) (s : State) (w : Nat → Dbl) : Did :=
  let c := s.cur.ctx
  let x := s.curCtx
  if !(descClean w) then .trap s 0x01 (wordArg i)
  else if 8 ≤ x.depth then .done s (negStatus 1)
  else if 4096 ≤ s.ctxs.length then .done s (negStatus 2)
  else if !(subsetOk s c w) then .done s (negStatus 3)
  else
    let ids := freeCtxIds s
    match ids[Config.freeNat s.fresh % ids.length]? with
    | none => .done s (negStatus 2)
    | some id =>
      let y := ctxOfDesc id (some c) x.part (x.depth + 1) x.fb x.fl x.pflim w
      let s := s.updCtx c fun x => { x with qmask := x.qmask &&& ~~~(w 3) }
      .done ({ s with ctxs := assocSet id y s.ctxs, fresh := s.fresh + 1 }.giveKey id) (BitVec.ofNat 64 id)

/-- R158: a descriptor that is not 64-byte aligned raises 0x03. -/
def aligned64 (s : State) (ea : Dbl) (f : State → Did) : Did :=
  if ea.toNat % 64 ≠ 0 then .trap s 0x03 ea else f s

/-- R158, R354: CTX.NEW. [log 33 DEDUCED] -/
def execCtxNew (d a : Reg) (s : State) : Host.Outcome State Fault Refusal :=
  let i : Instr := .ctxNew d a
  .next ((needTask i s fun s => whenOldest s fun s =>
    withLog s (fun s v => .done s v) fun s => aligned64 s (s.g a) fun s =>
      if s.curCtx.revoking then .trap s 0x12 (BitVec.ofNat 64 s.cur.ctx)
      else readBlocks 2 (s.g a) (fun _ => 0) 0 s (newFrom i)).finish d)

/-! ## Children (R117, R357) -/

/-- R117: the context that a register names, where it is a child of the act's current context. -/
def childNamed (s : State) (v : Dbl) : Option Nat :=
  if v.toNat < 4096 && (s.ctxs.any fun p => p.1 == v.toNat) && (s.ctx v.toNat).parent == some s.cur.ctx
  then some v.toNat else none

/-- R117: an instruction that names a child; any other context raises 0x02. -/
def withChild (i : Instr) (s : State) (v : Dbl) (f : State → Nat → Did) : Did :=
  match childNamed s v with
  | some c => f s c
  | none => .trap s 0x02 (wordArg i)

/-- R357: a context of a subtree that is being revoked, or has been, raises 0x12. -/
def notRevoked (s : State) (c : Nat) (f : State → Did) : Did :=
  if (s.ctx c).revoking || (s.ctx c).revoked then .trap s 0x12 (BitVec.ofNat 64 c) else f s

/-! ## CTX.GRANT (R355) -/

/-- R355: a grant descriptor with no reserved bit set. -/
def grantClean (w : Nat → Dbl) : Bool :=
  ((w 2).extractLsb' 49 15 == 0) && ((w 3).extractLsb' 2 62 == 0)
    && (List.range 8).all fun d => rectClean (rectWord w 4 d)

/-- R355: a rectangle granted to child `c` on die `d`. -/
def grantRectOk (s : State) (c d : Nat) (w : Nat → Dbl) : Bool :=
  match rectOfWord (rectWord w 4 d) with
  | none => true
  | some r =>
    (match rectOf (s.ctx c) d with
      | some old => rectWithin old r && rectGrows s c d r old
      | none => rectAllowed s s.cur.ctx d (some c) r)
where
  /-- R355: the added tiles of a grown rectangle are held by no other child and no running act of the context. -/
  rectGrows (s : State) (c d : Nat) (r old : Nat × Nat × Nat × Nat) : Bool :=
    decide (r.1 + r.2.2.1 ≤ 16) && decide (r.2.1 + r.2.2.2 ≤ 16)
    && (match rectOf s.curCtx d with
        | some p => rectWithin r p
        | none => false)
    && (List.range 256).all fun t =>
        let q := (t % 16, t / 16, 1, 1)
        !(rectWithin q r) || rectWithin q old ||
          ((s.children s.cur.ctx).all (fun x => x.id == c || match rectOf x d with
            | some y => !(rectsMeet q y)
            | none => true)
          && s.acts.all fun p => !(p.2.life != .free && p.2.ctx == s.cur.ctx && p.2.region.die == d && rectsMeet q p.2.region.rect))

/-- R355: the byte offset of the first field that a grant may not make. -/
def grantFault (s : State) (c : Nat) (w : Nat → Dbl) : Option Nat :=
  let x := s.curCtx
  let y := s.ctx c
  if w 0 &&& ~~~x.qmask ≠ 0 then some 0
  else if x.portion < y.portion + bits (w 1) 0 32 then some 8
  else if floorLeft s s.cur.ctx < (bits (w 1) 32 32 : Int) then some 0x0C
  else if bits (w 2) 0 49 ≠ 0 && bits (w 2) 0 49 < y.mbound then some 0x10
  else ((List.range 8).find? fun d => !(grantRectOk s c d w)).map fun d => 0x20 + 4 * d

/-- R356: a rectangle of a die holds no tile that a context has moved to a child. -/
def State.notMoved (s : State) (ctx die : Nat) (r : Nat × Nat × Nat × Nat) : Bool :=
  (s.children ctx).all fun c => match rectOf c die with
    | some q => !(rectsMeet r q)
    | none => true

/-- R366: every tile of a list has the tag of a context's partition. -/
def State.ownTag (s : State) (ctx : Nat) (ts : List TileId) : Bool := ts.all fun t => (s.tile t).tag == some (s.ctx ctx).part

/-- R362: a stopped act resumed at FAULTPC, or past it. -/
def Act.resumed (a : Act) (skip : Bool) : Act :=
  { a with
    life := .running, issue := a.issue.map fun e => { e with held := false },
    regs := { a.regs with acpc := if skip then a.regs.faultPc + 4 else a.regs.faultPc } }

/-- R362: the stopped acts of a subtree whose trap a context claimed, resumed. -/
def State.resume (s : State) (by_ c : Nat) (skip : Bool) : State :=
  let f (a : Act) : Act := if a.life = .trapped (some by_) && s.inSubtree c a.ctx then a.resumed skip else a
  let out (p : Nat × Act) : Bool := p.2.life == .switchedOut && s.inSubtree c p.2.ctx &&
    s.sch.green.any fun g => g.act.id == p.1 && g.act.life == .trapped (some by_)
  let acts := s.acts.map fun p => (p.1, if out p then { p.2.resumed skip with life := .switchedOut } else f p.2)
  let gs := s.sch.green.map fun g => { g with act := if s.acts.any (fun p => p.1 == g.act.id && out p) then
    { g.act with life := .running } else g.act }
  { s with acts := acts, sch := { s.sch with green := gs } }

/-- R355, R359: the child after a grant. -/
def Ctx.granted (y : Ctx) (pb pl : Nat) (w : Nat → Dbl) : Ctx :=
  let b := bits (w 2) 0 49
  { y with
    qmask := y.qmask ||| w 0, portion := y.portion + bits (w 1) 0 32, floor := y.floor + bits (w 1) 32 32,
    mbound := if b = 0 then y.mbound else b,
    fb := if b = 0 then y.fb else pb + y.mbase, fl := if b = 0 then y.fl else Nat.min b (pl - y.mbase),
    rects := Vector.ofFn fun d : Fin 8 =>
      if (rectWord w 4 d.val).getLsbD 31 then rectWord w 4 d.val else y.rects[d.val] }

/-- R355: CTX.GRANT past the reading of its descriptor. -/
def grantFrom (i : Instr) (c : Nat) (s : State) (w : Nat → Dbl) : Did :=
  if !(grantClean w) then .trap s 0x01 (wordArg i)
  else match grantFault s c w with
  | some off => .trap s 0x12 (BitVec.ofNat 64 off)
  | none =>
    let p := s.curCtx
    let s := (s.updCtx c (·.granted p.fb p.fl w)).updCtx s.cur.ctx fun x => { x with qmask := x.qmask &&& ~~~(w 0) }
    .done (if (w 3).getLsbD 0 then s.resume s.cur.ctx c ((w 3).getLsbD 1) else s) 0

/-- R158, R355: CTX.GRANT. [log 142 DEDUCED] -/
def execCtxGrant (a b : Reg) (s : State) : Host.Outcome State Fault Refusal :=
  let i : Instr := .ctxGrant a b
  .next ((needTask i s fun s => whenOldest s fun s =>
    withLog s (fun s v => .done s v) fun s => withChild i s (s.g a) fun s c => notRevoked s c fun s =>
      aligned64 s (s.g b) fun s => readBlocks 1 (s.g b) (fun _ => 0) 0 s (grantFrom i c)).end)

/-! ## Revocation (R357, R159) -/

/-- R159: the stack of contexts that an act keeps when it leaves the subtree below context `r`. -/
def stackAbove (r : Nat) : List Nat → List Nat
  | [] => []
  | c :: l => if c = r then l else stackAbove r l

/-- The context in which an act was launched. -/
def Act.home (a : Act) : Nat := a.ctxStack.getLast?.getD a.ctx

/-- R349, R357: a task without the part of act `id`: a task in step 2 stands, and `none` when no other act shares it. -/
def Task.without (t : Task) (id : Nat) : Option Task :=
  let u := { t with parts := t.parts.filter (· ≠ id), checks := t.checks.filter (·.1 ≠ id) }
  if t.step1 && t.parts = [] then some t
  else if (t.act = id || t.parts.contains id || t.checks.any (·.1 == id)) && u.parts = [] && u.checks = [] then none else some u

/-- R348, R357: the uncommitted tasks of an act in the domains `cs` discarded: staged lines, deferred atomics and held commands. -/
def State.discardIn (s : State) (id : Nat) (cs : List Nat) : State :=
  let drop (c : Ctx) : Ctx := { c with tasks := c.tasks.filterMap fun t => t.without id }
  let xs := s.ctxs.map fun p => (p.1, if cs.contains p.1 then drop p.2 else p.2)
  { s with ctxs := xs }.updAct id fun a =>
    { a with issue := a.issue.filter fun e => !(cs.contains e.ctx), taskOpen := a.taskOpen && !(cs.contains a.ctx), wingStall := false }

/-- R348, R357: the uncommitted tasks of an act discarded. -/
def State.discardTasks (s : State) (id : Nat) : State :=
  (s.discardIn id (s.ctxs.map (·.1))).updAct id fun a => { a with issue := [], taskOpen := false, wingStall := false }

/-- R159: an act that stands trapped runs again, to take another trap. -/
def Act.unstop (a : Act) : Act :=
  match a.life with
  | .trapped _ => { a with life := .running }
  | _ => a

/-- Where an act stands, as it was saved if it is switched out. -/
def State.lifeOf (s : State) (a : Act) : Life :=
  if a.life = .switchedOut then ((s.sch.green.find? (·.act.id == a.id)).map (·.act.life)).getD a.life else a.life

/-- R159, R376: an act that leaves a subtree for context `r`: what it performed in the contexts `cs` is in its replay log no longer. -/
def Act.leftFor (a : Act) (r : Nat) (cs : List Nat) : Act :=
  let log := a.log.filter fun e => !(cs.contains e.ctx)
  { a with ctx := r, ctxStack := stackAbove r a.ctxStack, log := log, replay := a.replay && log.any fun e => !e.used }

/-- R159, R357: an act that entered the subtree of `child` from outside leaves it for the revoker's context, and takes 0x12 there. Its
uncommitted tasks in the subtree are discarded, and a task opens in the domain of the context now current, as at CTX.EXIT; an act that has
halted opens none, and takes no trap. [log 32 DEDUCED] -/
def State.expel (s : State) (id r child : Nat) : State :=
  let cs := (s.ctxs.map (·.1)).filter (s.inSubtree child)
  let s := (s.discardIn id cs).updAct id (·.leftFor r cs)
  if s.lifeOf (s.act id) = .halted then s
  else
    let s := (s.openTask id ((s.ctx r).highest + 1)).takeCheckpoint id
    let arg := BitVec.ofNat 64 child
    if (s.act id).life = .switchedOut then
      let gs := s.sch.green.map fun g => if g.act.id = id then { g with act := g.act.unstop } else g
      { s with sch := { s.sch with green := gs } }.trapAsync id r 0x12 arg
    else (s.updAct id Act.unstop).trapAt id (s.act id).regs.acpc 0x12 arg

/-- R348, R357, R384: an act that is curtained for a cancel or a revoke ends; a collective of which it is a member aborts. -/
def State.endAct (s : State) (id : Nat) (last : Option Nat) : State :=
  let s := s.discardTasks id
  let s := s.abortColl fun p => match (s.queue p.q).entries with
    | e :: _ => e.act == id
    | [] => false
  let l := (s.act id).launch
  let s := (s.leaveCues id).lastInterval id
  let s := { s with sch := { s.sch with green := s.sch.green.filter (·.act.id ≠ id) } }
  let s := ((((s.leaveFed id).orphan id).dropChannels id).freeSlots id last).setAct (Act.empty id)
  let s := { s with fab := { s.fab with badShadows := s.fab.badShadows.filter (· ≠ id) } }
  match l with
  -- R349: the cancel has ended this act, and is not ignored.
  | some l => ((s.updLaunch l fun l => { l with cancelAt := none }).childDone l).releaseBanks
  | none => s.releaseBanks

/-- R357, R348, R370: the curtain that ends an act started; one in progress takes the reason, and an act that is
switched out or freed already ends at once. -/
def State.curtainFor (s : State) (id reason : Nat) : State :=
  let a := s.act id
  match a.life with
  | .free => s
  | .switchedOut => s.endAct id none
  | _ => match a.curtain with
    | some c => s.updAct id fun a => { a with curtain := some { c with reason := reason } }
    | none => s.startCurtain id reason

/-- R136, R357: the curtain in the region of an act that has left a subtree; its gates stay closed. -/
def State.curtainLeft (s : State) (id : Nat) : State :=
  let a := s.act id
  if !a.present then s
  else match a.curtain with
    | some c => if c.reason = 4 then s.updAct id fun a => { a with curtain := some { c with reason := 2 } } else s
    | none => s.startCurtain id 2

/-- R158, R357: a context that is held, and that no revoke has reached. -/
def State.ctxLive (s : State) (c : Nat) : Bool := s.ctxs.any (·.1 == c) && !(s.ctx c).revoking && !(s.ctx c).revoked

/-- Of a stack of contexts, the innermost one that is live, with the one below it, which is not. -/
def State.liveBelow (s : State) : List Nat → Option (Nat × Nat)
  | c :: r :: l => if !(s.ctxLive c) && s.ctxLive r then some (r, c) else s.liveBelow (r :: l)
  | _ => none

/-- R159: an act that a rollback has put back into a child revoked since then leaves it again. -/
def State.leaveDead (s : State) (id : Nat) : State :=
  let a := s.act id
  match s.liveBelow (a.ctx :: a.ctxStack) with
  | some (r, child) => if s.ctxLive a.ctx then s else s.expel id r child
  | none => s

/-- The contexts of the subtree of `c`. -/
def State.subtree (s : State) (c : Nat) : List Nat := (s.ctxs.filter fun p => s.inSubtree c p.1).map (·.1)

/-- R357 step 1: a revoke of `c` by context `r` begins. -/
def State.beginRevoke (s : State) (r c : Nat) : State :=
  let cs := s.subtree c
  let s := cs.foldl (fun s x => s.updCtx x fun y => { y with revoking := true }) s
  let s := (s.sch.launches.filter fun l => cs.contains l.ctx).foldl (fun s l => s.cancelLaunch l.id) s
  s.acts.foldl (fun s p =>
    if p.2.life = .free || !(cs.contains p.2.ctx) then s
    else if cs.contains p.2.home then s.curtainFor p.1 2 else (s.expel p.1 r c).curtainLeft p.1) s

/-- R357: an act that left the subtree of a child of `r` awaits its curtain. -/
def Act.leaves (a : Act) (r : Option Nat) : Bool :=
  some a.ctx == r && match a.curtain with
    | some m => m.reason == 2
    | none => false

/-- R357: no act's current context lies in the subtree any longer, every curtain is complete, and so is every task in step 2. -/
def State.subtreeQuiet (s : State) (c : Nat) : Bool :=
  s.acts.all (fun p => p.2.life == .free || !(s.inSubtree c p.2.ctx || p.2.leaves (s.ctx c).parent))
    && s.ctxs.all fun p => !(s.inSubtree c p.1) || p.2.tasks.all fun t => !(t.step1 && t.parts == [])

/-- The queues that a context of a tree holds. -/
def heldQueues (s : State) (root : Nat) (m : Dbl) : List QueueId := (s.maskQueues root m).map (·.1)

/-- R357 steps 2 to 6: the revoke of `c` by `r` ends. With no revoker the context is a virtual device. -/
def State.endRevoke (s : State) (r : Option Nat) (c : Nat) : State :=
  let cs := s.subtree c
  let root := s.rootOf c
  let mask := cs.foldl (fun m x => m ||| (s.ctx x).qmask) 0
  let depth := (s.ctx c).depth
  let part := (s.ctx c).part
  let fault := (s.ctx c).lastFault
  let s := s.abortColl fun p => match (s.queue p.q).entries with
    | e :: _ => cs.contains e.ctx
    | [] => false
  let s := (heldQueues s root mask).foldl (fun s q => s.resetQueue q) s
  let s := { s with eng := { s.eng with pages := s.eng.pages.filter fun p => !(cs.contains p.ctx) } }
  let s := { s with sch := { s.sch with graphs := s.sch.graphs.filter (fun g => !(cs.contains g.ctx)),
                                        levels := s.sch.levels.filter fun g => !(cs.contains g.ctx) } }
  let ts := s.fab.tiles.map fun p => (p.1, { p.2 with slots := p.2.slots.map fun x =>
    match x.lastCtx with
    | some l => if cs.contains l then { x with lastCtx := none } else x
    | none => x })
  let s := { s with fab := { s.fab with tiles := ts } }
  let s := { s with eng := { s.eng with slices := s.eng.slices.filter fun e => !(cs.contains e.ctx) } }
  let s := match r with
    | some r => s.updCtx r fun x => { x with qmask := x.qmask ||| mask }
    | none => s
  let gone := { Ctx.empty c with parent := r, part := part, depth := depth, revoked := true, lastFault := fault }
  let s := { s with ctxs := assocSet c gone (s.ctxs.filter fun p => p.1 = c || !(cs.contains p.1)) }.dropKeys cs
  s.report r part (reflectBytes 2 0 c depth 0 0 0 0)

/-- R158, R357: CTX.REVOKE: it begins the revoke, waits for the curtains, and ends it. -/
def revokeChild (s : State) (c : Nat) : Did :=
  if (s.ctx c).revoked then .done s 0
  else
    let s := if (s.ctx c).revoking then s else s.beginRevoke s.cur.ctx c
    if s.subtreeQuiet c then .done (s.endRevoke (some s.cur.ctx) c) 0 else .wait s

/-- R158, R357: CTX.REVOKE. -/
def execCtxRevoke (a : Reg) (s : State) : Host.Outcome State Fault Refusal :=
  .next ((whenOldest s fun s => withLog s (fun s v => .done s v) fun s =>
    withChild (.ctxRevoke a) s (s.g a) revokeChild).end)

/-! ## CTX.ENTER, CTX.EXIT and CTX.STAT -/

/-- R158: an act moves to another context, whose domain then runs on its die (R268), and opens a task there one above the highest stamp
registered (R295). -/
def State.moveTo (s : State) (c : Nat) (stack : List Nat) : State :=
  let s := s.endPart s.me
  let s := s.updCur fun a => { a with ctx := c, ctxStack := stack }
  (s.giveWings c (actDie s.me)).openTask s.me ((s.ctx c).highest + 1)

/-- R376: a replayed CTX.ENTER or CTX.EXIT moves the act and takes the logged stamp. -/
def Act.replayMove (a : Act) (c : Nat) (stack : List Nat) (stamp : Dbl) : Act :=
  { a.replayTask (some stamp.toNat) with ctx := c, ctxStack := stack }

/-- R158, R268: CTX.ENTER; it waits for the wings of a domain that begins to run on the die. -/
def execCtxEnter (a : Reg) (s : State) : Host.Outcome State Fault Refusal :=
  let c := (s.g a).toNat
  .next ((whenOldest s fun s =>
    withLog s (fun s v =>
      if s.ctxLive c then .done (s.updCur fun x => x.replayMove c (x.ctx :: x.ctxStack) v) v else .trap s 0x12 (BitVec.ofNat 64 c)) fun s =>
      withChild (.ctxEnter a) s (s.g a) fun s c => notRevoked s c fun s =>
        if !(s.wingsReady c (actDie s.me)) then .wait s
        else
          let s := s.moveTo c (s.cur.ctx :: s.cur.ctxStack)
          .done s s.cur.regs.stamp).endCheckpoint)

/-- R158, R117: CTX.EXIT. -/
def execCtxExit (s : State) : Host.Outcome State Fault Refusal :=
  .next (match s.cur.ctxStack with
    | [] => (whenOldest s fun s => .trap s 0x02 (wordArg .ctxExit)).end
    | c :: rest =>
      (whenOldest s fun s =>
        withLog s (fun s v => .done (s.updCur fun x => x.replayMove c rest v) v) fun s =>
          let s := s.moveTo c rest
          .done s s.cur.regs.stamp).endCheckpoint)

/-- R358: an act stands trapped in the subtree of `c`, awaiting the claim of `c` or of a context above it. -/
def trappedIn (s : State) (c : Nat) : Bool :=
  s.acts.any fun p => s.inSubtree c p.2.ctx && match s.lifeOf p.2 with
    | .trapped none => true
    | .trapped (some r) => r == c || (s.ancestors c).contains r
    | _ => false

/-- R358: the state of a child. -/
def childState (s : State) (c : Nat) : Nat :=
  if (s.ctx c).revoked then 4
  else if trappedIn s c then 3
  else if s.acts.any fun p => p.2.life != .free && p.2.ctx == c then 2
  else 1

/-- R158: the status of a child. -/
def childStatus (s : State) (c : Nat) : Dbl :=
  BitVec.ofNat 64 (childState s c + (s.ctx c).lastFault.toNat * 2 ^ 8
    + Nat.min (s.eng.pages.filter (·.ctx == c)).length 65535 * 2 ^ 16)

/-- R357: CTX.STAT of a revoked child frees its identifier. -/
def statChild (s : State) (c : Nat) : Did :=
  let v := childStatus s c
  .done (if (s.ctx c).revoked then { s with ctxs := assocDel c s.ctxs } else s) v

/-- R158, R358: CTX.STAT. -/
def execCtxStat (d a : Reg) (s : State) : Host.Outcome State Fault Refusal :=
  .next ((whenOldest s fun s => withLog s (fun s v => .done s v) fun s =>
    withChild (.ctxStat d a) s (s.g a) statChild).finish d)

end Sys2Proof.Machine
end

