-- ==== Sys2Proof/Machine/Alarm.lean ====
section
/-! DEFINITION. Alarms (R423 to R425), the verification of signatures (R417 to R419), the repair map's identifier
(R429) and the reset of a fabric die (R18). -/
namespace Sys2Proof.Machine

/-- The security state changed. -/
def State.updSec (s : State) (f : Security → Security) : State :=
  { s with ctl := { s.ctl with sec := f s.ctl.sec } }

/-! ## Resets (R18) -/

/-- R17, R18: a task without the lines that a die's wings hold, without the atomics deferred there, and without what its ports have
gathered. -/
def Task.offDie (t : Task) (die : Nat) : Task :=
  { t with
    lines := t.lines.filter (·.die ≠ die), deferred := t.deferred.filter (·.srcDie ≠ die),
    accs := t.accs.filter fun r => 64 ≤ r.src || actDie r.act != die }

/-- R17, R18: all state held on a fabric die cleared: its tiles, banks, wings, engines, slices, atomics and act contexts. What a green
room holds of an act stays, and the sequence number, the binding and the record's address of a queue, which the scheduler keeps. [log 132 DEDUCED] -/
def State.clearDie (s : State) (die : Nat) : State :=
  let gone := (s.acts.filter fun p => actDie p.1 == die && p.2.present).map (·.1)
  let cs := s.ctxs.map fun p => (p.1, { p.2 with tasks := p.2.tasks.map (·.offDie die) })
  let s := { s with ctxs := cs }
  let s := gone.foldl (fun s id => ((s.discardTasks id).orphan id).setAct (Act.empty id)) s
  let q (x : QueueId × Queue) : QueueId × Queue :=
    match s.serverOf x.1 with
    | some sv => if sv.place.1 = die then
        (x.1, { Queue.empty x.1 with server := x.2.server, recAddr := x.2.recAddr, recBound := x.2.recBound, seq := x.2.seq }) else x
    | none => x
  let f := s.fab
  let e := s.eng
  { s with
    fab := { f with
      tiles := f.tiles.filter (·.1.die ≠ die), banks := f.banks.filter (·.1 / 512 ≠ die),
      windows := f.windows.filter (·.1.src.die ≠ die), returns := f.returns.filter (·.2.src.die ≠ die),
      requests := f.requests.filter (·.1.src.die ≠ die), drops := f.drops.filter (·.link.src.die ≠ die),
      hedgeCount := f.hedgeCount.filter (·.1.die ≠ die),
      flights := f.flights.filter (·.wire.t.die ≠ die), asked := f.asked.filter (·.wire.t.die ≠ die),
      turns := f.turns.filter (·.1.t.die ≠ die), badShadows := f.badShadows.filter (actDie · ≠ die),
      channels := f.channels.filter fun c => actDie c.act != die,
      fed := (f.fed.filter (·.2.1.die ≠ die)).map fun x => if gone.any (x.1 == some ·) then (none, x.2) else x }
    eng := { e with
      queues := e.queues.map q,
      score := e.score.filter fun r => match s.serverOf r.q with
        | some sv => sv.place.1 != die
        | none => true,
      coll := e.coll.filter fun p => match s.serverOf p.q with
        | some sv => sv.place.1 != die
        | none => true,
      slices := e.slices.filter (·.die ≠ die), atoms := e.atoms.filter (·.die ≠ die) } }

/-- The repair map's words as bytes (R429). -/
def mapBytes (l : List W32) : List Byte := l.flatMap fun w => leBytes 4 w.toNat

/-- R429: RMAP, the first 8 bytes of the digest of the map. -/
def State.rmap (s : State) : Nat := leNat ((Config.sha384 (mapBytes s.fab.repair)).take 8)

/-! ## Alarms -/

/-- R436: an ALARM record in the security log ring. -/
def State.alarmRecord (s : State) (level code : Nat) : State :=
  let ring := s.ctl.sec.logRing
  let die := 8 + s.leader.val
  if ring = 0 then s
  else
    let (s, lost) := tracePut s ring s.ctl.sec.logLost (traceBytes 0x0D 0 die 0 s.cycle (level + code * 2 ^ 8) 0)
      (traceBytes 0x0E 0 die 0 s.cycle s.ctl.sec.logLost 0)
    s.updSec fun x => { x with logLost := lost }

/-- R424: an act that a level-2 alarm curtains: one that stands on its region and has not halted. -/
def Act.curtainable (a : Act) : Bool :=
  match a.life with
  | .running | .trapped _ | .stopped => true
  | _ => false

/-- R370, R424: the curtain of a switch-out started; one in progress is awaited, and takes the reason. [log 54 DEDUCED] -/
def State.switchOut (s : State) (id reason : Nat) : State :=
  match (s.act id).curtain with
  | some c => s.updAct id fun a =>
      { a with curtain := some { c with reason := reason, gates := if c.reason = 4 then a.region.gates else c.gates } }
  | none => s.startCurtain id reason

/-- R424: level 2: everything quiesces. -/
def State.quiesce (s : State) : State :=
  let s := s.updSec fun x => { x with quiesced := true }
  s.acts.foldl (fun s p => if p.2.curtainable then s.switchOut p.1 5 else s) s

/-- R424: level 3: keys erased, green rooms unreadable, every die but the security cores held in reset. -/
def State.lockdown (s : State) : State :=
  let s := (List.range 8).foldl (fun s d => s.clearDie d) s
  let s := (s.updKeys fun _ => { identity := false, sessions := [], contexts := [] }).updSec fun x => { x with keysErased := true, locked := true, quiesced := true }
  let ds := s.ctl.dies.map fun d => { d with apps := Vector.replicate 16 Core.reset, cores := Vector.ofFn fun i : Fin 8 =>
    if i.val = 7 then d.cores[i.val] else { Core.reset with held := true } }
  { s with ctl := { s.ctl with dies := ds } }

/-- R425: an alarm above level 1 has acted in this cycle. -/
def State.alarmActed (s : State) : Bool := s.ctl.sec.acted.any fun a => a.1 == s.cycle

/-- R424: what levels 1 and 2 do first: the record and the count. -/
def State.noteAlarm (s : State) (level code : Nat) : State :=
  ((s.updSec fun x => { x with level := Nat.max x.level level }).alarmRecord level code).countPkg 0x83 1

/-- R423 to R425: an alarm of a level with its trigger code. Of the alarms of one cycle the highest acts, so that one of level 1 waits for
the end of its cycle. [log 47 DEDUCED] -/
def State.raiseAlarm (s : State) (level code : Nat) : State :=
  let s := s.updSec fun x => { x with highest := Nat.max x.highest level }
  if s.ctl.sec.locked then s
  else
    let s := s.signal 14
    if 3 ≤ level then (s.updSec fun x => { x with level := 3, due := [], acted := some (s.cycle, 3) }).lockdown
    else if level < 2 then (if s.alarmActed then s else s.updSec fun x => { x with due := x.due ++ [code] })
    else
      let s := s.updSec fun x => { x with due := [], acted := some (s.cycle, 2) }
      if s.ctl.sec.quiesced then s.alarmRecord 2 code else (s.noteAlarm 2 code).quiesce

/-- R424, R425: the level-1 alarms of the cycle that ends act; in a quiesce each writes its record alone. -/
def State.endAlarms (s : State) : State :=
  s.ctl.sec.due.foldl (fun s code => if s.ctl.sec.quiesced then s.alarmRecord 1 code else s.noteAlarm 1 code)
    (s.updSec fun x => { x with due := [] })

/-! ## Signatures (R417, R418) -/

/-- R418, R423: a signature failure: counted, and the alarm of the window raised where the count reaches 4 or 16. -/
def State.signatureFailure (s : State) : State :=
  let w := (s.ctl.sec.failures.filter fun i => decide (s.interval < i + 1000000)) ++ [s.interval]
  let s := (s.updSec fun x => { x with failures := w }).countPkg 0x84 1
  if w.length = 4 then s.raiseAlarm 1 4 else if w.length = 16 then s.raiseAlarm 2 4 else s

/-- R419: the key in a slot of the fuses, unless it is empty or revoked. -/
def Security.key (x : Security) (lms : Bool) (slot : Nat) : Option (List Byte) :=
  match x.keys.find? fun k => k.lms == lms && k.slot == slot with
  | some k => if k.revoked then none else some k.key
  | none => none

/-- R417: the signature block has its magic and no reserved bit set; only firmware has an SVN. -/
def sigFormOk (w0 w1 : Nat) (firmware : Bool) : Bool :=
  w0 % 2 ^ 32 == 0xA85B1C0E && w0 / 2 ^ 35 % 2 ^ 5 == 0 && w0 / 2 ^ 43 % 2 ^ 5 == 0 && w1 == 0
    && (firmware || w0 / 2 ^ 48 == 0)

/-- R418: whether both signatures in a signature block verify over the covered bytes. -/
def sigVerifies (x : Security) (covered block : List Byte) (firmware : Bool) : Bool :=
  let w0 := leNat (block.take 8)
  let digest := Config.sha384 covered
  block.length == 1852 && sigFormOk w0 (leNat ((block.drop 8).take 8)) firmware &&
  match x.key false (w0 / 2 ^ 32 % 8), x.key true (w0 / 2 ^ 40 % 8) with
  | some ec, some lms =>
    Config.ecdsaVerify ec digest ((block.drop 0x10).take 96) && Config.lmsVerify lms digest ((block.drop 0x70).take 1740)
  | _, _ => false

/-- R418: whether the image at `pa` of a memory, with `n` covered bytes, verifies. -/
def imageVerifies (s : State) (m : Mem) (pa n : Nat) : Bool :=
  sigVerifies s.ctl.sec (m.readList pa n) (m.readList (pa + n) 1852) false

/-- R418: the image at `pa` verified, and the failure counted where it does not verify. -/
def State.verifyImage (s : State) (m : Mem) (pa n : Nat) : Bool × State :=
  if imageVerifies s m pa n then (true, s) else (false, s.signatureFailure)

end Sys2Proof.Machine
end

