-- ==== Sys2Proof/Machine/Loader.lean ====
section
/-! DEFINITION. Admission of images (R245 to R254), the verify rings (R441), relocation (R437 to R440), the
configuration rings of the fabric dies (R442) and the loader routine (R255, R443). -/
namespace Sys2Proof.Machine

/-! ## Writing a tile's scene slot (R164, R188, R255, R442) -/

/-- R164, R187, R188: the pipeline state of a scene just loaded. -/
def SceneSt.loaded (c : TileCfg) : SceneSt := { SceneSt.zero with l := c.init }

/-- The words of a scene slot of a tile replaced; a listed tile takes role 0 (R430). -/
def State.writeSlot (s : State) (t : TileId) (k : Nat) (c : TileCfg) : State :=
  let c := if s.listed t then idleCfg else c
  s.updTile t fun x =>
    { x with cfg := x.cfg.set k (some c), parity := x.parity.filter (·.1 ≠ k),
             st := { x.st with scenes := x.st.scenes.set k (SceneSt.loaded c) } }

/-- R442: a scene slot of a tile emptied. -/
def State.clearSlot (s : State) (t : TileId) (k : Nat) : State :=
  s.updTile t fun x => { x with cfg := x.cfg.set k none, parity := x.parity.filter (·.1 ≠ k) }

/-- R193: the words of a tile's other loaded slots name another AP or another MP than a new block. -/
def apClash (x : Tile) (k : Nat) (c : TileCfg) : Bool :=
  c.node && (List.range 4).any fun j => j != k && match (x.cfg[j]?).join with
    | some d => d.node && (nodeAP d.nodeWord != nodeAP c.nodeWord
        || (nodeMode d.nodeWord == 1 && nodeMode c.nodeWord == 1 && nodeMP d.nodeWord != nodeMP c.nodeWord))
    | none => false

/-- R428: an error counted for the partition whose rectangle holds a tile, and for its die. -/
def State.countTile (s : State) (t : TileId) (id : Nat) : State :=
  let s := match (s.tile t).tag with
    | some p => s.countPart p id 1
    | none => s
  s.countPkg (0x10000 * (t.die + 1) + id) 1

/-- R58: with a new block, the slot counts of the circuits that end at some input of a tile pass 16 over its loaded slots. -/
def slotsOver (x : Tile) (k : Nat) (c : TileCfg) : Bool :=
  let others := (List.range 4).filterMap fun j => if j = k then none else (x.cfg[j]?).join
  (List.range 4).any fun i => decide (16 < ((c :: others).map fun d => if d.enabled i then d.slotsOf i else 0).foldl (· + ·) 0)

/-- R193: the MP inputs that the tile's other loaded slots name. -/
def Tile.mps (x : Tile) (k : Nat) : List Nat :=
  (List.range 4).filterMap fun j => match (x.cfg[j]?).join with
    | some d => if j != k && d.node && nodeMode d.nodeWord == 1 then some (nodeMP d.nodeWord) else none
    | none => none

/-- R337: a tile whose scene slots hold nothing. -/
def State.emptyTile (s : State) (t : TileId) : State :=
  s.updTile t fun x => { x with cfg := [none, none, none, none], parity := [] }

/-- R442, R255 step 4: a tile given the block at an address of a memory: it checks the header, the CRC, the node words
(R193) and then the parity of the words it has written. A tile that refuses leaves the slot empty. `mps` are the MP inputs that the
image's other scenes name on the tile. -/
def State.offerBlock (s : State) (m : Mem) (mps : List Nat) (t : TileId) (k a : Nat) : Nat × State :=
  let h := m.dbl a
  let c := blockCfg m a
  if hdTile h ≠ t.tile || hdScn h ≠ k then (0x30, s.clearSlot t k)
  else if !crcOk m a then (0x36, s.clearSlot t k)
  else if apClash (s.tile t) k c || slotsOver (s.tile t) k c || !(c.lent.all ((mps ++ (s.tile t).mps k).contains ·)) then (0x30, s.clearSlot t k)
  else if (s.tile t).weak.contains k then (0x36, (s.clearSlot t k).countTile t 0x77)
  else (0, s.writeSlot t k c)

/-! ## An image as it stands on its pages (R254) -/

/-- The numbers of the pages of `n` bytes that stand in one piece. -/
def piecePages (pa n : Nat) : List Nat := (List.range ((pa % 4096 + n + 4095) / 4096)).map (pa / 4096 + ·)

/-- R254: the memory with an image, which stands on `pages`, in one piece from its physical address on. [log 40 DEDUCED] -/
def State.view (s : State) (pa : Nat) (pages : List Nat) : Mem :=
  if pages == (List.range pages.length).map (pa / 4096 + ·) then s.mem
  else (List.range pages.length).flatMap fun i =>
    (s.mem.filter fun c => c.1 / 4096 == (pages[i]?).getD 0).map fun c => ((pa / 4096 + i) * 4096 + c.1 % 4096, c.2)

/-- R254: the memory with the admitted image at a physical address in one piece. -/
def State.imageMem (s : State) (pa : Nat) : Mem :=
  match s.sch.admitted.find? fun x => x.pa == pa with
  | some x => s.view x.pa x.pages
  | none => s.mem

/-! ## Configuration requests (R442) -/

/-- R257, R258: whether a tile still holds a scene slot of the act that governs it, or passes on tokens of it that wait to leave. [log 135 DEDUCED] -/
def State.tileHolds (s : State) (t : TileId) (k : Nat) : Bool :=
  match s.ownerOf t with
  | some id => (s.holdsScene (s.act id) t k || (s.ownTiles id).any fun u => (s.tile u).outq.any fun p => p.scene == k) && (s.act id).present
  | none => false

/-- R442: a rectangle that is valid and stays on the die. -/
def rectFits (w : W32) : Bool :=
  w.getLsbD 31 && decide ((w.extractLsb' 12 4).toNat + (w.extractLsb' 4 4).toNat ≤ 15)
    && decide ((w.extractLsb' 8 4).toNat + (w.extractLsb' 0 4).toNat ≤ 15)

/-- R397: the physical address of the entry at HEAD of a ring of 32-byte entries, if the ring holds one. -/
def ringHead (m : Mem) (d : Nat) : Option Nat :=
  let head := m.readN (d + 16) 8
  if d = 0 || !populated d || head = m.readN (d + 24) 8 then none
  else some (m.readN d 8 + head % 2 ^ (m.readN (d + 8) 8 % 32) * 32)

/-- The ring's entry at HEAD taken. -/
def State.ringPop (s : State) (d : Nat) : State := s.store (d + 16) 8 ((s.mem.readN (d + 16) 8 + 1) % 2 ^ 64)

/-- R442: an answer placed in the die's answer ring, and the request taken. [log 46 DESIGN CHOICE] -/
def State.answerConfig (s : State) (die status tag : Nat) : State :=
  let rings := s.ctl.configRings[die]!
  let s := s.ringPop rings.1
  (ringPutPhys s rings.2 5 (leBytes 8 (status + tag * 2 ^ 16) ++ leBytes 24 0)).getD s

/-- The run of the loader routine that serves a die. -/
def State.runOn (s : State) (die : Nat) : Option LoadRun := s.ctl.loads.find? fun r => r.die == die

/-- R256: a load has begun in some tile. -/
def State.markBegun (s : State) (die : Nat) : State :=
  match s.runOn die with
  | none => s
  | some r => s.updAct r.act fun a => a.updSlot r.slot fun sl => { sl with job := sl.job.map fun j => { j with begun := true } }

/-- R236: the tiles of a die on which a load of the die's routine acts: where a spawned act runs they are not its spawner's. -/
def State.loadsTile (s : State) (t : TileId) : Bool :=
  match s.runOn t.die with
  | some r => s.ownerOf t == some r.act || (s.ownerOf t).isNone
  | none => true

/-- R260: the routine's load has been abandoned by a rollback, and writes no word any longer. -/
def State.deadRun (s : State) (die : Nat) : Bool := (s.runOn die).any (·.dead)

/-- R442: a CLEAR: each tile that has released the slot empties it, and the answer comes once all have. -/
def State.configClear (s : State) (die slot tag : Nat) (rect : W32) : State :=
  let ts := (rectRegion die rect).tiles.filter s.loadsTile
  let free := ts.filter fun t => !s.tileHolds t slot
  let s := free.foldl (fun s t => s.clearSlot t slot) s
  let s := if free = [] then s else s.markBegun die
  if free.length = ts.length then s.answerConfig die 0 tag else s

/-- R442: the request at the head of a die's ring, as its four doubles. -/
def configRequest (s : State) (die : Nat) : Option (Dbl × Dbl × Dbl × Dbl) :=
  match ringHead s.mem (s.ctl.configRings[die]!).1 with
  | none => none
  | some a => some (s.mem.dbl a, s.mem.dbl (a + 8), s.mem.dbl (a + 16), s.mem.dbl (a + 24))

/-- R442: a request that is malformed, whatever its OP. -/
def configBad (w0 w3 : Dbl) : Bool := 2 ≤ bits w0 0 2 || bits w0 32 32 != 0 || w3 != 0 || 320 ≤ bits w0 4 12

/-- R372, R256: the loader routine of a die serves an act that no longer stands on its region: its requests are
refused, since the tiles are no longer the act's. [log 56 DEDUCED] -/
def State.staleRun (s : State) (die : Nat) : Bool := s.ctl.loads.any fun r => r.die == die && !(s.act r.act).present

/-- R442: CONFIG_CLEAR: the die takes a CLEAR, or refuses a malformed one. -/
def execConfigClear (die : Nat) (s : State) : Host.Outcome State Fault Refusal :=
  .next (match configRequest s die with
    | none => s
    | some (w0, w1, _, w3) =>
      let tag := bits w0 16 16
      if bits w0 0 2 = 1 then s
      else if s.staleRun die || configBad w0 w3 || bits w1 32 32 ≠ 0 || !(rectFits (w1.extractLsb' 0 32)) then s.answerConfig die 0x30 tag
      else if s.deadRun die then s.answerConfig die 0 tag
      else s.configClear die (bits w0 2 2) tag (w1.extractLsb' 0 32))

/-- R442, R443: a tile given the block that a WRITE names, of the image that the die's routine loads. -/
def State.offerRun (s : State) (t : TileId) (k a : Nat) : Nat × State :=
  match s.runOn t.die with
  | none => s.offerBlock s.mem [] t k a
  | some r =>
    let m := s.imageMem r.image
    s.offerBlock m (mpsOf m (blockAddrs m (imNblk (m.dbl r.image)) (r.image + 64)) t.tile) t k a

/-- R442: CONFIG_WRITE: the die sends the block of a WRITE to its tile. -/
def execConfigWrite (die : Nat) (s : State) : Host.Outcome State Fault Refusal :=
  .next (match configRequest s die with
    | none => s
    | some (w0, w1, w2, w3) =>
      let tag := bits w0 16 16
      let t : TileId := { die := die, tile := bits w0 4 12 }
      if bits w0 0 2 ≠ 1 then s
      else if s.staleRun die || configBad w0 w3 || w1.toNat % 8 ≠ 0 || (w2 ≠ 0x0F8 && w2 ≠ 0x1F8) then s.answerConfig die 0x30 tag
      else if s.deadRun die then s.answerConfig die 0 tag
      else if s.tileHolds t (bits w0 2 2) then s
      else
        let (st, s) := s.offerRun t (bits w0 2 2) w1.toNat
        (s.markBegun die).answerConfig die st tag)

/-! ## The loader routine (R255, R443) -/

/-- R353: a region as a rectangle word. -/
def RegionSt.word (r : RegionSt) : W32 :=
  BitVec.ofNat 32 (2 ^ 31 + r.x0 * 2 ^ 12 + r.y0 * 2 ^ 8 + (r.w - 1) * 2 ^ 4 + (r.h - 1))

/-- R255 steps 1 and 2: where the image that a SCENE.LOAD names stands, or the load error. -/
def loadImage (s : State) (a : Act) (va : Dbl) : Except Byte Nat :=
  match translateCtl s a.ctx va .read with
  | .ok pa =>
    if !(s.sch.admitted.any fun x => x.ctx == a.ctx && x.pa == pa && !x.script) then .error 0x37
    else
      let r := imRegion (s.mem.dbl pa)
      if r.die = a.region.die && r.rect = a.region.rect then .ok pa else .error 0x30
  | _ => .error 0x37

/-- R372: a tile moved with its region, by columns and rows; a port tile moves along its side. -/
def shiftTile (dx dy : Int) (t : TileId) : TileId :=
  if t.tile < 256 then
    { t with tile := (((t.tile / 16 : Nat) : Int) + dy).toNat * 16 + (((t.tile % 16 : Nat) : Int) + dx).toNat }
  else
    let side := (t.tile - 256) / 16
    let d := if side % 2 = 0 then dx else dy
    { t with tile := portIndex side (((t.tile % 16 : Nat) : Int) + d).toNat }

/-- R260, R372: a slot of a region filled again from the admitted image at `va`. The image's blocks go to the region
where it now stands. -/
def State.reloadSlot (s : State) (id k : Nat) (va : Dbl) : State :=
  let a := s.act id
  match translateCtl s a.ctx va .read with
  | .ok pa =>
    let m := s.imageMem pa
    let r := imRegion (m.dbl pa)
    let mv := shiftTile ((a.region.x0 : Int) - r.x0) ((a.region.y0 : Int) - r.y0)
    let as := (blockAddrs m (imNblk (m.dbl pa)) (pa + 64)).filter fun a => hdScn (m.dbl a) == k
    let at? (t : TileId) : Option Nat := as.find? fun b => mv { die := a.region.die, tile := hdTile (m.dbl b) } == t
    (s.ownTiles id).foldl (fun s t => match at? t with
      | some b => s.writeSlot t k (blockCfg m b)
      | none => s.writeSlot t k idleCfg) s
  | _ => s

/-- R443: a run of the loader routine changed. -/
def State.updLoad (s : State) (die : Nat) (f : LoadRun → LoadRun) : State :=
  let ls := s.ctl.loads.map fun r => if r.die = die then f r else r
  { s with ctl := { s.ctl with loads := ls } }

/-- R442, R443: a request placed in the die's ring. -/
def State.sendConfig (s : State) (die : Nat) (w0 w1 w2 : Nat) : State :=
  let ring := (s.ctl.configRings[die]!).1
  (ringPutPhys s ring 5 (leBytes 8 w0 ++ leBytes 8 w1 ++ leBytes 8 w2 ++ leBytes 8 0)).getD s

/-- R443: the next WRITE of a run, from its current block, skipping the blocks of other scenes and of tiles that a spawned act runs on
(R236). -/
def nextWrite : Nat → LoadRun → State → State
  | 0, r, s => s.updLoad r.die fun _ => { r with phase := .done, code := 0 }
  | n + 1, r, s =>
    if r.left = 0 then s.updLoad r.die fun _ => { r with phase := .done, code := 0 }
    else
      let a := r.image + r.off
      let h := (s.imageMem r.image).dbl a
      let r' := { r with off := r.off + blockLen h, left := r.left - 1 }
      if hdScn h ≠ r.slot || !(s.loadsTile { die := r.die, tile := hdTile h }) then nextWrite n r' s
      else
        let s := s.updLoad r.die fun _ => { r' with tag := r.tag + 1, tile := hdTile h, phase := .write }
        s.sendConfig r.die (1 + r.slot * 4 + hdTile h * 2 ^ 4 + r.tag * 2 ^ 16) a (blockLen h)

/-- R443: the slot of a run is given its first or its second CLEAR. -/
def State.sendClear (s : State) (r : LoadRun) (ph : LoadPhase) : State :=
  let s := s.updLoad r.die fun r => { r with tag := r.tag + 1, phase := ph }
  s.sendConfig r.die (r.slot * 4 + r.tag * 2 ^ 16) (s.act r.act).region.word.toNat 0

/-- R443: a run takes an answer of status `st`. -/
def State.loadAnswer (s : State) (r : LoadRun) (st : Nat) : State :=
  match r.phase with
  | .clear =>
    if st = 0 then nextWrite r.left r s
    else s.updLoad r.die fun r => { r with phase := .done, code := st, tile := 0xFFF }
  | .write =>
    if st = 0 then nextWrite r.left r s
    else (s.updLoad r.die fun r => { r with code := st }).sendClear { r with code := st } .undo
  | .undo => s.updLoad r.die fun r => { r with phase := .done }
  | .done => s

/-- R255 step 6, R443: the end of a load of slot `k` of act `id` with a code, and the tile that it names. -/
def State.endLoad (s : State) (id k : Nat) (code : Byte) (tile : Nat) : State :=
  (if code = 0 then s else s.clearTiles id k).updAct id fun a => a.updSlot k fun sl => match sl.job with
    | none => sl
    | some j =>
      if code = 0 then { sl with st := if sl.st = .inForce then .inForce else .loaded, image := j.image, job := none }
      else { sl with st := .empty, job := none, error := some (code, BitVec.ofNat 64 (tile + k * 2 ^ 12)) }

/-- R255, R256, R443: a load that no run serves yet: the image checked, and the first CLEAR placed. A die whose rings are not
named ends the routine without DONE. An error ends the load once the slot is LOADING: one that is RETIRING stays so until every tile has
released it. [log 45 DEDUCED] -/
def State.beginLoad (s : State) (id k : Nat) (j : LoadJob) : State :=
  let a := s.act id
  match loadImage s a j.image with
  | .error e => if (a.slot k).st = .loading then s.endLoad id k e 0xFFF else s
  | .ok pa =>
    let die := a.region.die
    if (s.ctl.configRings[die]!).1 = 0 then (if (a.slot k).st = .loading then s.endLoad id k 0x30 0xFFF else s)
    else if s.ctl.loads.any (·.die == die) then s
    else
      let r : LoadRun :=
        { die := die, act := id, slot := k, no := j.no, image := pa, off := 64, left := imNblk (s.mem.dbl pa), tag := 0,
          tile := 0xFFF, phase := .clear, code := 0, dead := false }
      ({ s with ctl := { s.ctl with loads := s.ctl.loads ++ [r] } }).sendClear r .clear

/-- R443: LOAD_REQUEST: the routine that serves the loads of an act's die takes its next turn. -/
def execLoadRequest (act slot : Nat) (s : State) : Host.Outcome State Fault Refusal :=
  .next (match s.ctl.loads.find? fun r => r.act == act && r.slot == slot with
    | some r =>
      match ringHead s.mem (s.ctl.configRings[r.die]!).2 with
      | none => s
      | some a => (s.ringPop (s.ctl.configRings[r.die]!).2).loadAnswer r (s.mem.readN a 1)
    | none => match ((s.act act).slot slot).job with
      | none => s
      | some j => if (s.act act).present then s.beginLoad act slot j else s)

/-- R443: SCENE_LOAD_COMPLETE: the routine ends; the result of a load that a newer one or a rollback has overtaken
is discarded. -/
def execSceneLoadComplete (act slot : Nat) (s : State) : Host.Outcome State Fault Refusal :=
  .next (match s.ctl.loads.find? fun r => r.act == act && r.slot == slot && r.phase == .done with
    | none => s
    | some r =>
      let s := { s with ctl := { s.ctl with loads := s.ctl.loads.filter (· ≠ r) } }
      match ((s.act act).slot slot).job with
      | some j =>
        if j.no ≠ r.no then s
        else if r.code = 0 then
          -- R255 step 7: tiles of the region that no block names take role 0.
          let idle := (s.ownTiles act).filter fun t => (s.cfg t slot).isNone
          (idle.foldl (fun s t => s.writeSlot t slot idleCfg) s).endLoad act slot 0 0
        else s.endLoad act slot (BitVec.ofNat 8 r.code) r.tile
      | none => s)

/-! ## Scripts (R245 to R249) -/

/-- R245: whether the bytes at a physical address begin a script. -/
def isScript (m : Mem) (a : Nat) : Bool := m.readN a 4 == 0xA85C0B0E

/-- R246: the region entry `v` of a script at `a`. -/
def regionEntry (m : Mem) (a v : Nat) : Nat := a + m.readN (a + 8) 8 + 32 * v

/-- R245: the counts of a script. -/
def scNreg (m : Mem) (a : Nat) : Nat := m.readN (a + 0x38) 1
def scNtile (m : Mem) (a : Nat) : Nat := m.readN (a + 0x39) 2
def scNlink (m : Mem) (a : Nat) : Nat := m.readN (a + 0x3B) 2
/-- R245: SIGOFF, the length of what the signatures cover. -/
def scSig (m : Mem) (a : Nat) : Nat := m.readN (a + 0x30) 8

/-- R246: W and H of a region entry, and the die edges that it requires. -/
def reW (w : Dbl) : Nat := bits w 8 5
def reH (w : Dbl) : Nat := bits w 16 5
def reEdge (w : Dbl) : Nat := bits w 24 4

/-- R246: the bytes of a script that an act's code and data occupy, as offsets. -/
def codeSpan (m : Mem) (a v : Nat) : List (Nat × Nat) :=
  let e := regionEntry m a v
  let code := m.readN (a + 0x20) 8 + m.readN (e + 8) 8
  [(code, code + m.readN (e + 0x18) 4)].filter fun p => decide (p.1 < p.2)
def dataSpan (m : Mem) (a v : Nat) : List (Nat × Nat) :=
  let e := regionEntry m a v
  let data := m.readN (a + 0x28) 8 + m.readN (e + 0x10) 8
  [(data, data + m.readN (e + 0x1C) 4)].filter fun p => decide (p.1 < p.2)
def regionSpans (m : Mem) (a v : Nat) : List (Nat × Nat) := codeSpan m a v ++ dataSpan m a v

/-- R246: the fields of one entry of the region table in order. -/
def regionEntryOk (m : Mem) (a v : Nat) : Bool :=
  let e := regionEntry m a v
  let w0 := m.dbl e
  let clen := m.readN (e + 0x18) 4
  bits w0 0 6 == v && bits w0 6 2 == 0 && bits w0 13 3 == 0 && bits w0 21 3 == 0 && bits w0 31 33 == 0
    && 1 ≤ reW w0 && reW w0 ≤ 16 && 1 ≤ reH w0 && reH w0 ≤ 16 && bits w0 28 2 < 3
    && clen % 4 == 0 && 4 ≤ clen

/-- R247: the length of the tile record whose header is `h`. -/
def recordLen (h : Dbl) : Nat := if hdL h then 0x1A8 else 0x0A8

/-- R247: the offsets of the tile records from the first. -/
def recordAddrs (m : Mem) : Nat → Nat → List Nat
  | 0, _ => []
  | n + 1, a => a :: recordAddrs m n (a + recordLen (m.dbl a))

/-- R246, R247: a tile of virtual region `v`: an interior tile of it, or a port on an edge that it requires. -/
def vtileOk (m : Mem) (a v vt : Nat) : Bool :=
  let w := m.dbl (regionEntry m a v)
  let side := (vt - 256) / 16
  if vt < 256 then vt % 16 < reW w && vt / 16 < reH w
  else vt < 320 && (reEdge w).testBit (3 - side) && decide (vt % 16 < if side % 2 = 0 then reW w else reH w)

/-- R247, R249: a tile record in order: its CRC, its class fields and its reserved bits. -/
def recordOk (m : Mem) (a nreg r : Nat) : Bool :=
  let h := m.dbl r
  let n := recordLen h - 8
  let cls := (List.range 6).all fun k => bits h (28 + 2 * k) 2 != 3
  let timed := (List.range 6).any fun k => bits h (28 + 2 * k) 2 != 0
  bits h 58 6 < nreg && vtileOk m a (bits h 58 6) (bits h 48 10) && hdRole h ≤ 4 && bits h 0 16 == 0 && cls
    && timed == (bits h 16 12 != 0) && crc32c (m.readList r n) == m.word (r + n) && m.word (r + n + 4) == 0

/-- R248, R249: a link record in order. -/
def linkOk (m : Mem) (a nreg r : Nat) : Bool :=
  let l := m.dbl r
  bits l 58 6 < nreg && vtileOk m a (bits l 58 6) (bits l 48 10) && bits l 40 6 < nreg && vtileOk m a (bits l 40 6) (bits l 30 10)
    && bits l 21 2 != 3 && (bits l 21 2 != 0) == (bits l 9 12 != 0) && bits l 0 7 == 0

/-- R58: the slots of the circuits that end at one port, which are those of one scene and of channels, are at most 16. -/
def portSlotsOk (m : Mem) (a : Nat) : Bool :=
  let ls := (List.range (scNlink m a)).map fun i => m.dbl (a + m.readN (a + 0x18) 8 + 8 * i)
  ls.all fun l =>
    ((ls.filter fun x => bits x 28 18 == bits l 28 18 && (bits x 7 2 == bits l 7 2 || bits x 58 6 != bits l 58 6)).map fun x =>
      bits x 24 4).foldl (· + ·) 0 ≤ 16

/-- R245: spans of bytes of which no two overlap. -/
def spansApart : List (Nat × Nat) → Bool
  | [] => true
  | p :: l => (l.all fun q => decide (p.2 ≤ q.1) || decide (q.2 ≤ p.1)) && spansApart l

/-- The least span that holds all of a list. -/
def hull (l : List (Nat × Nat)) : List (Nat × Nat) :=
  match l with
  | [] => []
  | p :: l => [l.foldl (fun x q => (Nat.min x.1 q.1, Nat.max x.2 q.2)) p]

/-- R245, R246: the spans of a script's header, its region table, its tile records and its link records. -/
def tableSpans (m : Mem) (a : Nat) : List (Nat × Nat) :=
  let reg := m.readN (a + 8) 8
  let tile := m.readN (a + 0x10) 8
  let link := m.readN (a + 0x18) 8
  let recs := ((recordAddrs m (scNtile m a) (a + tile)).map fun r => recordLen (m.dbl r)).foldl (· + ·) 0
  [(0, 64), (reg, reg + 32 * scNreg m a), (tile, tile + recs), (link, link + 8 * scNlink m a)].filter fun p => decide (p.1 < p.2)

/-- R245: the control-stream section and the data section, each from its offset to the end of the last span that a region entry
names in it. -/
def sectionSpans (m : Mem) (a : Nat) : List (Nat × Nat) :=
  let spans := (List.range (scNreg m a)).flatMap fun v => (codeSpan m a v).map (true, ·) ++ (dataSpan m a v).map (false, ·)
  let part (code : Bool) (off : Nat) : List (Nat × Nat) :=
    match hull ((spans.filter (·.1 == code)).map (·.2)) with
    | [p] => [(Nat.min off p.1, p.2)]
    | _ => []
  part true (m.readN (a + 0x20) 8) ++ part false (m.readN (a + 0x28) 8)

/-- R245 to R249: the checks on a script's header, tables and sections; every table and every act's code and data lie before SIGOFF. A
record whose CRC is bad is refused as one that breaks its form. [log 125 DESIGN CHOICE] -/
def scriptOk (m : Mem) (a : Nat) : Bool :=
  let nreg := scNreg m a
  isScript m a && m.readN (a + 4) 2 == 1 && m.readN (a + 6) 2 == 0 && 1 ≤ nreg && nreg ≤ 64
    && m.readN (a + 0x3D) 3 == 0 && (List.range nreg).all (regionEntryOk m a)
    && (recordAddrs m (scNtile m a) (a + m.readN (a + 0x10) 8)).all (recordOk m a nreg)
    && (List.range (scNlink m a)).all (fun k => linkOk m a nreg (a + m.readN (a + 0x18) 8 + 8 * k))
    && portSlotsOk m a && spansApart (tableSpans m a ++ sectionSpans m a)
    && (List.range nreg).all (fun v => (regionSpans m a v).all fun p => (tableSpans m a).all fun q => decide (p.2 ≤ q.1) || decide (q.2 ≤ p.1))
    && ((tableSpans m a) ++ (List.range nreg).flatMap (regionSpans m a)).all fun p => p.2 ≤ scSig m a

/-- R252: a virtual tile and a physical tile of one kind, or ports of one edge. -/
def sameKind (vt t : Nat) : Bool :=
  if vt < 256 then t < 256 && isMTile vt == isMTile t else decide (256 ≤ t) && (vt - 256) / 16 == (t - 256) / 16

/-- R252: the block at `blk` of a memory carries the tile record at `rec` of another: role, scene, flags and body agree, and the tile is
of the record's kind. -/
def carries (m : Mem) (rec : Nat) (im : Mem) (blk : Nat) : Bool :=
  let h := m.dbl rec
  let b := im.dbl blk
  hdRole h == hdRole b && hdScn h == hdScn b && hdL h == hdL b && hdM h == hdM b
    && m.readList (rec + 8) 0x98 == im.readList (blk + 8) 0x98 && sameKind (bits h 48 10) (hdTile b)
    && (!hdL h || m.readList (rec + 0xA0) 256 == im.readList (blk + 0xF0) 256)

/-- The tile records of a virtual region. -/
def recordsOf (m : Mem) (a v : Nat) : List Nat :=
  (recordAddrs m (scNtile m a) (a + m.readN (a + 0x10) 8)).filter fun r => bits (m.dbl r) 58 6 == v

/-- The link records of a script, with their numbers. -/
def linksOf (m : Mem) (a : Nat) : List (Nat × Dbl) :=
  (List.range (scNlink m a)).map fun i => (i, m.dbl (a + m.readN (a + 0x18) 8 + 8 * i))

/-- R248: the link records of a script that are channels, with their numbers. -/
def channelLinks (m : Mem) (a : Nat) : List (Nat × Dbl) := (linksOf m a).filter fun l => bits l.2 58 6 != bits l.2 40 6

/-- The blocks of an image. -/
def imageBlocks (im : Mem) (img : Nat) : List Nat := blockAddrs im (imNblk (im.dbl img)) (img + 64)

/-- The words of one scene of an image, by tile. -/
def sceneCfgs (im : Mem) (img k : Nat) : List (Nat × TileCfg) :=
  ((imageBlocks im img).filter fun b => hdScn (im.dbl b) == k).map fun b => (hdTile (im.dbl b), blockCfg im b)

/-- R252: the tiles of an emitted image that may carry virtual tile `vt` of region `v` in scene `k`. -/
def carriers (m : Mem) (a v vt k : Nat) (im : Mem) (img : Nat) : List Nat :=
  let recs := (recordsOf m a v).filter fun r => bits (m.dbl r) 48 10 == vt && hdScn (m.dbl r) == k
  ((imageBlocks im img).filter fun b => recs.any fun r => carries m r im b).map fun b => hdTile (im.dbl b)

/-! ### The translator's map of one region (R249, R252) -/

/-- What the map of a virtual region is held against: the script at `a` of `m`, its region `v`, the image at `img` of `im`, and the tiles
that the repair map lists on the image's die. -/
structure Realised where
  m : Mem
  a : Nat
  v : Nat
  im : Mem
  img : Nat
  out : List Nat

/-- The image's rectangle. -/
def Realised.region (x : Realised) : RegionSt := imRegion (x.im.dbl x.img)

/-- R238, R249, R252, R438: a block leaves its tile at rest: role 0, or role 4 where some circuit passes through the tile. [log 41 DEDUCED] -/
def restsAt (im : Mem) (b : Nat) : Bool :=
  hdRole (im.dbl b) == 0 || (hdRole (im.dbl b) == 4 && (blockCfg im b).routes.any (·.getLsbD 31))

/-- R252: a virtual tile may be mapped to a tile: one of its kind that is not listed, whose block carries the virtual tile's record in
each scene that has one, and which only passes tokens in the others. -/
def Realised.fits (x : Realised) (vt t : Nat) : Bool :=
  sameKind vt t && !x.out.contains t && x.region.holds { die := x.region.die, tile := t } && (List.range 4).all fun k =>
    let recs := (recordsOf x.m x.a x.v).filter fun r => bits (x.m.dbl r) 48 10 == vt && hdScn (x.m.dbl r) == k
    let blks := (imageBlocks x.im x.img).filter fun b => hdTile (x.im.dbl b) == t && hdScn (x.im.dbl b) == k
    if recs = [] then blks.all (restsAt x.im)
    else recs.all fun r => blks.any (carries x.m r x.im)

/-- R57, R58, R68: the ends of a route within one scene of a rectangle, each as a tile, its input, and h at the first operating point. -/
def sceneEnds (r : RegionSt) (cfg : Nat → Option TileCfg) : Nat → Nat → W32 → Nat → List (Nat × Nat × Nat)
  | 0, _, _, _ => []
  | n + 1, t, w, h =>
    if !w.getLsbD 31 then []
    else
      (if w.getLsbD 26 then [(t, (w.extractLsb' 16 2).toNat, Nat.max h 1)] else []) ++
      (routeDirs w).flatMap fun (d, c) =>
        match neighbour { die := r.die, tile := t } d with
        | none => []
        | some (u, _) =>
          if !r.holds u then []
          else match cfg u.tile with
          | none => []
          | some k => sceneEnds r cfg n u.tile ((k.routes[4 * ((d + 2) % 4) + c]?).getD 0)
              (h + 1 + (if quadrant t = quadrant u.tile then 0 else elasticDelay (pointCycles 0)))

/-- R249: an h within a link's timing class. -/
def classMet (l : Dbl) (h : Nat) : Bool :=
  match bits l 21 2 with
  | 1 => decide (h ≤ bits l 9 12)
  | 2 => h == bits l 9 12
  | _ => true

/-- R248, R249, R252: the image has the circuit of a link record between two tiles, with its slots, its boundary node and its class. -/
def Realised.linked (x : Realised) (l : Dbl) (p c : Nat) : Bool :=
  let cs := sceneCfgs x.im x.img (bits l 7 2)
  match assoc? p cs, assoc? c cs with
  | some k, some j =>
    (sceneEnds x.region (assoc? · cs) sceneFuel p ((k.routes[16 + bits l 46 2]?).getD 0) 0).any
        (fun e => e.1 == c && e.2.1 == bits l 28 2 && classMet l e.2.2)
      && j.slotsOf (bits l 28 2) == bits l 24 4 && (!l.getLsbD 23 || ((k.ports[4 + bits l 46 2]?).getD 0).getLsbD 58)
  | _, _ => false

/-- The link records of the region whose ends `map` knows, where one of them is virtual tile `vt`, have their circuits. -/
def Realised.linksMet (x : Realised) (map : List (Nat × Nat)) (vt : Nat) : Bool :=
  (linksOf x.m x.a).all fun l =>
    if bits l.2 58 6 = x.v && bits l.2 40 6 = x.v && (bits l.2 48 10 = vt || bits l.2 30 10 = vt) then
      match assoc? (bits l.2 48 10) map, assoc? (bits l.2 30 10) map with
      | some p, some c => x.linked l.2 p c
      | _, _ => true
    else true

/-- R252: every branch of the image's circuits is that of a link record. -/
def Realised.onlyLinks (x : Realised) (map : List (Nat × Nat)) : Bool :=
  (List.range 4).all fun k =>
    let cs := sceneCfgs x.im x.img k
    let ls := (linksOf x.m x.a).filter fun l => bits l.2 58 6 == x.v && bits l.2 7 2 == k
    (sceneElems cs).all fun e => (elemEnds x.region cs e).all fun o =>
      let mine := ls.filter fun l => assoc? (bits l.2 48 10) map == some e.1 && bits l.2 46 2 == o.1
      match o.2 with
      | .input t i _ => mine.any fun l => bits l.2 40 6 == x.v && assoc? (bits l.2 30 10) map == some t && bits l.2 28 2 == i
      | .outside => mine.any fun l => bits l.2 40 6 != x.v
      | .endless => false

/-- R252: the tiles that no virtual tile maps to are at rest in every scene. -/
def Realised.restIdle (x : Realised) (map : List (Nat × Nat)) : Bool :=
  (imageBlocks x.im x.img).all fun b => map.any (·.2 == hdTile (x.im.dbl b)) || restsAt x.im b

/-- A map of the virtual tiles of a list to tiles, one to one, beside those that `map` has, or none. -/
def Realised.search (x : Realised) (ts : List Nat) : List Nat → List (Nat × Nat) → Option (List (Nat × Nat))
  | [], map => if x.onlyLinks map && x.restIdle map then some map else none
  | vt :: vts, map =>
    match assoc? vt map with
    | some t => if x.fits vt t && x.linksMet map vt then x.search ts vts map else none
    | none => ts.findSome? fun t =>
        if map.any (·.2 == t) || !x.fits vt t then none
        else if x.linksMet ((vt, t) :: map) vt then x.search ts vts ((vt, t) :: map) else none

/-- R252: the number of M-tiles, and of the other interior tiles, among a list. -/
def kinds (l : List Nat) : Nat × Nat := (l.countP isMTile, l.countP fun t => !isMTile t)

/-- The interior tiles of a rectangle. -/
def boxTiles (x0 y0 w h : Nat) : List Nat := (List.range h).flatMap fun y => (List.range w).map fun x => (y0 + y) * 16 + x0 + x

/-- R252: a rectangle has a working tile for each virtual tile of a region of W × H, kind by kind. -/
def roomIn (out : List Nat) (vw vh x0 y0 w h : Nat) : Bool :=
  let need := kinds (boxTiles 0 0 vw vh)
  let have_ := kinds ((boxTiles x0 y0 w h).filter fun t => !out.contains t)
  need.1 ≤ have_.1 && need.2 ≤ have_.2

/-- R252: a physical rectangle is the smallest, and larger than W × H only where fused-off tiles force it. -/
def smallest (out : List Nat) (vw vh : Nat) (r : RegionSt) : Bool :=
  roomIn out vw vh r.x0 r.y0 r.w r.h && ((r.w == vw && r.h == vh) ||
    (vw ≤ r.w && vh ≤ r.h && (boxTiles r.x0 r.y0 r.w r.h).any out.contains
      && [(r.x0 + 1, r.y0, r.w - 1, r.h), (r.x0, r.y0, r.w - 1, r.h), (r.x0, r.y0 + 1, r.w, r.h - 1), (r.x0, r.y0, r.w, r.h - 1)].all
        fun (x, y, w, h) => w < vw || h < vh || !roomIn out vw vh x y w h))

/-- R249: a tile record's class, that of the largest among its non-zero stage words, holds its firing interval. -/
def intervalMet (m : Mem) (r : Nat) : Bool :=
  let h := m.dbl r
  let ws := (List.range 6).map fun k => m.dbl (r + 8 + 8 * k)
  let cls := (List.range 6).foldl (fun c k => if (ws[k]?).getD 0 = 0 then c else Nat.max c (bits h (28 + 2 * k) 2)) 0
  match cls with
  | 1 => decide (firingInterval ws ≤ bits h 16 12)
  | 2 => firingInterval ws == bits h 16 12
  | _ => true

/-- R249, R252: the image realises its region of the script, with the pairs of `map`: there is a map of the region's virtual tiles that
carries every tile record and lays every link, its rectangle is the smallest, and every class is met. [log 41 DEDUCED] -/
def Realised.ok (x : Realised) (map : List (Nat × Nat)) : Bool :=
  let w := x.m.dbl (regionEntry x.m x.a x.v)
  let recs := recordsOf x.m x.a x.v
  let ends := (linksOf x.m x.a).flatMap fun l =>
    (if bits l.2 58 6 = x.v then [bits l.2 48 10] else []) ++ (if bits l.2 40 6 = x.v then [bits l.2 30 10] else [])
  let map := map.eraseDups
  let vts := (recs.map (fun r => bits (x.m.dbl r) 48 10) ++ ends ++ map.map (·.1)).eraseDups
  recs.all (intervalMet x.m) && smallest x.out (reW w) (reH w) x.region
    && (map.map (·.1)).eraseDups.length == map.length && (map.map (·.2)).eraseDups.length == map.length
    && (x.search (x.region.tiles.map (·.tile)) vts map).isSome

/-- The interior tiles of a die that the repair map lists. -/
def State.listedTiles (s : State) (die : Nat) : List Nat := (List.range 256).filter fun t => s.listed { die := die, tile := t }

/-- R252: the image at `img` realises region `v` of the script at `a` of `m`, with the pairs of `map`. [log 41 DEDUCED] -/
def State.realises (s : State) (m : Mem) (a v img : Nat) (map : List (Nat × Nat)) : Bool :=
  ({ m := m, a := a, v := v, im := s.mem, img := img, out := s.listedTiles (imDie (s.mem.dbl img)) } : Realised).ok map

/-! ### Channels (R68 to R70, R248, R311) -/

/-- R68, R69: tiles that stand on two dies, or in two quadrants of one. -/
def apartTiles (d : Nat) (ps : List Nat) (e : Nat) (cs : List Nat) : Bool :=
  d != e || ps.any fun p => cs.any fun c => quadrant p != quadrant c

/-- R311: B is clear in a channel's link record or in its producer's port descriptor. -/
def bareLink (m : Mem) (a : Nat) (l : Dbl) : Bool :=
  !l.getLsbD 23 || (recordsOf m a (bits l 58 6)).any fun r =>
    let h := m.dbl r
    bits h 48 10 == bits l 48 10 && hdScn h == bits l 7 2 && !(m.dbl (r + 0x60 + 8 * (4 + bits l 46 2))).getLsbD 58

/-- R254 step 4: the channels of scene `k` of virtual region `v` of the script at `a` of `m`, for the images `imgs` of `im` emitted from
it. [log 118 DEDUCED] -/
def channelsOf (m : Mem) (a : Nat) (im : Mem) (imgs : List Nat) (v k : Nat) : SceneChannels :=
  let img (u : Nat) : Nat := (imgs[u]?).getD 0
  let out := (channelLinks m a).filter fun l => bits l.2 58 6 == v && bits l.2 7 2 == k
  let into := (channelLinks m a).filter fun l => bits l.2 40 6 == v
  { short := out.any fun l => decide (bits l.2 24 4 < 4)
      && apartTiles (imDie (im.dbl (img v))) (carriers m a v (bits l.2 48 10) k im (img v))
        (imDie (im.dbl (img (bits l.2 40 6))))
        ((List.range 4).flatMap fun j => carriers m a (bits l.2 40 6) (bits l.2 30 10) j im (img (bits l.2 40 6))),
    bare := out.any fun l => bareLink m a l.2,
    entries := into.flatMap fun l => (carriers m a v (bits l.2 30 10) k im (img v)).map fun t => (t, bits l.2 28 2) }

/-- R70: the elements, each with its region and scene, that the zero-slot branches and channels of an element end at. -/
def zeroNext (m : Mem) (a : Nat) (im : Mem) (imgs : List Nat) (x : Nat × Nat × Nat × Element) : List (Nat × Nat × Nat × Element) :=
  let (v, k, t, e) := x
  let cfgs (v k : Nat) := sceneCfgs im ((imgs[v]?).getD 0) k
  let cs := cfgs v k
  let outs := match assoc? t cs with
    | some c => c.outputsOf e
    | none => []
  if e = .agen then []
  else
    ((elemEnds (imRegion (im.dbl ((imgs[v]?).getD 0))) cs (t, e)).flatMap fun p => match p.2 with
      | .input u i _ => if (assoc? u cs).any fun c => c.slotsOf i == 0 then (elemsAt cs (u, i)).map fun f => (v, k, f.1, f.2) else []
      | _ => []) ++
    ((channelLinks m a).flatMap fun l =>
      if bits l.2 58 6 = v && bits l.2 7 2 = k && bits l.2 24 4 = 0 && outs.contains (bits l.2 46 2)
          && (carriers m a v (bits l.2 48 10) k im ((imgs[v]?).getD 0)).contains t then
        let u := bits l.2 40 6
        (List.range 4).flatMap fun j => (carriers m a u (bits l.2 30 10) j im ((imgs[u]?).getD 0)).flatMap fun c =>
          (elemsAt (cfgs u j) (c, bits l.2 28 2)).map fun f => (u, j, f.1, f.2)
      else [])

/-- R70: a directed cycle of zero-slot circuits that channels close between the regions of a script. [log 43 DEDUCED] -/
def zeroCycle (m : Mem) (a : Nat) (im : Mem) (imgs : List Nat) : Bool :=
  (channelLinks m a).any (fun l => bits l.2 24 4 == 0) &&
    let els := (List.range imgs.length).flatMap fun v => (List.range 4).flatMap fun k =>
      (sceneElems (sceneCfgs im ((imgs[v]?).getD 0) k)).map fun e => (v, k, e.1, e.2)
    els.any fun e => (closure (zeroNext m a im imgs) els.length (zeroNext m a im imgs e)).contains e

/-- R254, R337: the load error, with its ARG, of the staging images that the translator emitted for the script at `a` of `m`, one for each
of its regions from `v` on; `all` are the images of every region. -/
def emittedError (s : State) (m : Mem) (a : Nat) (all : List Nat) : Nat → List Nat → Option (Byte × Nat)
  | _, [] => if zeroCycle m a s.mem all then some (0x31, 0xFFF) else none
  | v, img :: imgs =>
    match imageError s.mem img s.rmap (channelsOf m a s.mem all v) with
    | some e => some (e.1, e.2 + v * 2 ^ 14)
    | none => if s.realises m a v img [] then emittedError s m a all (v + 1) imgs else some (0x30, 0xFFF + v * 2 ^ 14)

/-- R250, R417: the covered length of a staging image. -/
def imCovered (m : Mem) (a : Nat) : Nat := 64 + m.readN (a + 8) 8

/-- R250, R417: the length of what the signatures of an image or a script cover. -/
def coveredLen (m : Mem) (a : Nat) : Nat := if isScript m a then scSig m a else imCovered m a

/-! ## Admission (R254) -/

/-- An image entered among the admitted ones. -/
def State.enrol (s : State) (x : Admitted) : State :=
  let old := s.sch.admitted.filter fun y => !(y.ctx == x.ctx && y.pa == x.pa)
  { s with sch := { s.sch with admitted := old ++ [x] } }

/-- R254 steps 1 and 2 on a script, step 1 on a staging image: the signatures, and a script's header and tables; the load error
and the state in which the check is counted. -/
def State.checkFront (s : State) (m : Mem) (pa : Nat) : Option (Byte × Nat) × State :=
  if s.ctl.sec.quiesced then (some (0x37, 0xFFF), s)
  else
    let (ok, s) := s.verifyImage m pa (coveredLen m pa)
    if !ok then (some (0x37, 0xFFF), s)
    else if isScript m pa && !scriptOk m pa then (some (0x30, 0xFFF), s)
    else (none, s)

/-- R254: the load error with which the image at `pa` on its pages is refused, with the tile and scene that it names, and the state in
which its check is counted. -/
def State.checkImage (s : State) (pages : List Nat) (pa : Nat) (emitted : List Nat) : Option (Byte × Nat) × State :=
  let m := s.view pa pages
  match s.checkFront m pa with
  | (some e, s) => (some e, s)
  | (none, s) =>
    if !isScript m pa then (imageError m pa s.rmap (fun _ => noChannels), s)
    else if emitted.length ≠ scNreg m pa then (some (0x30, 0xFFF), s)
    else (emittedError s m pa emitted 0 emitted, s)

/-- R254: the image at `va` of a context admitted with the images emitted from it, which stand in one piece each. [log 40 DEDUCED] -/
def State.admitImage (s : State) (ctx : Nat) (va : Dbl) (pages : List Nat) (pa : Nat) (emitted : List Nat) : State :=
  let m := s.view pa pages
  let s := s.enrol { ctx := ctx, va := va, pa := pa, len := coveredLen m pa + 1852, script := isScript m pa, emitted := emitted,
                     pages := pages }
  emitted.foldl (fun s e => s.enrol { ctx := ctx, va := 0, pa := e, len := imCovered s.mem e, script := false, emitted := [],
                                      pages := piecePages e (imCovered s.mem e) }) s

/-- R254: the pages of `n` more pages of a context's addresses from `va` on, where all of them are present. -/
def State.pagesFrom (s : State) (ctx : Nat) : Nat → Dbl → Option (List Nat)
  | 0, _ => some []
  | n + 1, va => match translateCtl s ctx va .read with
    | .ok pa => (s.pagesFrom ctx n (va + 4096)).map (pa / 4096 :: ·)
    | _ => none

/-- The number of pages that `n` bytes from an address touch. -/
def pageCount (va : Dbl) (n : Nat) : Nat := (va.toNat % 4096 + n + 4095) / 4096

/-- R254: the pages of the image at `va` of a context, whose first byte stands at `pa`: the header says how far it goes. -/
def State.imagePages (s : State) (ctx : Nat) (va : Dbl) (pa : Nat) : Option (List Nat) :=
  (s.pagesFrom ctx (pageCount va 64) va).bind fun ps => s.pagesFrom ctx (pageCount va (coveredLen (s.view pa ps) pa + 1852)) va

/-- R437: an image that relocation has emitted is checked under steps 2 to 4 and admitted without a signature. -/
def State.admitRelocated (s : State) (ctx : Nat) (img : Nat) : State :=
  if s.ctl.sec.quiesced || (imageError s.mem img s.rmap fun _ => noChannels).isSome then s
  else s.enrol { ctx := ctx, va := 0, pa := img, len := imCovered s.mem img, script := false, emitted := [],
                 pages := piecePages img (imCovered s.mem img) }

/-- R437: whether an image is a relocatable one. -/
def relocatable (m : Mem) (a : Nat) : Bool :=
  let h := m.dbl a
  !isScript m a && m.readN (a + 0x10) 8 == 0 && imDie h == 0 && (imRegion h).rect == (0, 0, 4, 4)

/-- R254, R437: IMAGE_ADMISSION: an image presented at `va` of a context, with the images that the translator emitted
from a script, or that relocation emitted from a relocatable image. [log 41 DEDUCED] -/
def execImageAdmission (ctx : Nat) (va : Dbl) (emitted : List Nat) (s : State) : Host.Outcome State Fault Refusal :=
  let s := s.signal 4
  .next (match translateCtl s ctx va .read with
    | .ok pa =>
      match s.imagePages ctx va pa with
        | none => s
        | some ps =>
          if relocatable s.mem pa && emitted ≠ [] then
            -- R417, R437: the relocatable image is verified, and what relocation emits from it carries no signature.
            match s.checkFront (s.view pa ps) pa with
            | (some _, s) => s
            | (none, s) => emitted.foldl (fun s e => s.admitRelocated ctx e) s
          else match s.checkImage ps pa emitted with
          | (none, s) => s.admitImage ctx va ps pa emitted
          | (some _, s) => s
    | _ => s)

/-! ## The verify rings (R441) -/

/-- R393, R420: whether the security core of a control die works. -/
def State.securityAlive (s : State) (d : Fin 2) : Bool := !(s.cdie d).failed && !(s.mcore d 7).held

/-- R441: VERIFY_REQUEST: the security core takes the next entry of a translator/loader core's ring and answers. -/
def execVerifyRequest (cdie core : Nat) (s : State) : Host.Outcome State Fault Refusal :=
  let d : Fin 2 := Fin.ofNat 2 cdie
  let ring := tally core (s.cdie d).verifyRings
  let here (pa : Nat) : Bool := s.controlReaches d pa && !s.fencedMem pa
  .next (match if here ring then ringHead s.mem ring else none with
    | none => s
    | some a =>
      let img := s.mem.readN a 8
      let n := s.mem.readN (a + 8) 8
      let ans := s.mem.readN (a + 16) 8
      -- R11: what lies beyond a row of dies that is down is waited for.
      if !(s.securityAlive d) || !(here a && here img && here ans) then s else
      let s := s.ringPop (tally core (s.cdie d).verifyRings)
      let (ok, s) := if s.ctl.sec.quiesced then (false, s) else s.verifyImage s.mem img n
      s.store ans 8 (2 ^ 63 + if ok then 0 else 0x37))

/-! ## Relocation (R437 to R440) -/

/-- What relocation works with: where the image goes, its blocks, the rectangle's first row, and the fused tile in the
rectangle's own coordinates, if there is one. -/
structure Reloc where
  dst : Nat
  die : Nat
  y0 : Nat
  fused : Option (Nat × Nat)
deriving DecidableEq, Repr

/-- R438: the physical tile index of a virtual tile; `none` for a tile that no relocatable image holds. -/
def Reloc.place (r : Reloc) (t : Nat) : Option Nat :=
  if t < 256 then
    let x := t % 16
    let y := t / 16
    if 4 ≤ x || 4 ≤ y then none
    else
      let x := match r.fused with
        | some (fx, fy) => if y = fy && fx ≤ x then x + 1 else x
        | none => x
      some ((y + r.y0) * 16 + x)
  else if 304 ≤ t && t < 308 then some (t + r.y0) else none

/-- The block of a scene of the relocated image whose tile is `t`. -/
def findBlock (m : Mem) (as : List Nat) (scn t : Nat) : Option Nat :=
  as.find? fun a => hdScn (m.dbl a) == scn && hdTile (m.dbl a) == t

/-- R439: an entry of a slid tile that relocation refuses: an output to N or S, or an arrival from N or S; Q may have
no W output either. -/
def slideBad (m : Mem) (a : Nat) (q : Bool) : Bool :=
  (List.range 20).any fun k =>
    let w := m.word (a + 0xA0 + 4 * k)
    w.getLsbD 31 && (w.getLsbD 30 || w.getLsbD 28 || (q && w.getLsbD 27) || (k < 16 && k / 4 % 2 == 0))

/-- R438: a word put into an empty entry of a detour tile; a role-0 tile takes role 4. `none` when relocation refuses. -/
def passThrough (m : Mem) (as : List Nat) (scn t k : Nat) (w : W32) : Option Mem :=
  match findBlock m as scn t with
  | none => none
  | some a =>
    if m.word (a + 0xA0 + 4 * k) ≠ 0 then none
    else
      let m := m.writeN (a + 0xA0 + 4 * k) 4 w.toNat
      let h := m.dbl a
      some (if hdRole h = 0 then m.writeN a 8 (h ||| 0x400000000000).toNat else m)

/-- R438: the circuit that entry `k` of P sends east led round the fused tile `f`. -/
def detour (m : Mem) (as : List Nat) (scn f p k : Nat) : Option Mem :=
  let w := m.word (p + 0xA0 + 4 * k)
  let c := (w.extractLsb' 22 2).toNat
  let cw (hi lo : Nat) : W32 := BitVec.ofNat 32 (hi + c * 2 ^ lo)
  if w.getLsbD 28 then none
  else
    let w' := ((w ||| 0x10000000) &&& ~~~(0x20C00000 : W32)) ||| cw 0 20
    let m := m.writeN (p + 0xA0 + 4 * k) 4 w'.toNat
    match passThrough m as scn (f + 15) c (cw 0xA0000000 22) with
    | none => none
    | some m => match passThrough m as scn (f + 16) (c + 12) (cw 0xA0000000 22) with
      | none => none
      | some m => match passThrough m as scn (f + 17) (c + 12) (cw 0xC0000000 24) with
        | none => none
        | some m => match findBlock m as scn (f + 1) with
          | none => none
          | some q =>
            let old := m.word (q + 0xA0 + 4 * (c + 12))
            passThrough (m.writeN (q + 0xA0 + 4 * (c + 12)) 4 0) as scn (f + 1) (c + 8) old

/-- R438: every circuit that P sends east led round the fused tile. -/
def detours (as : List Nat) (scn f p : Nat) : List Nat → Mem → Option Mem
  | [], m => some m
  | k :: ks, m =>
    let w := m.word (p + 0xA0 + 4 * k)
    if w.getLsbD 31 && w.getLsbD 29 then
      match detour m as scn f p k with
      | none => none
      | some m => detours as scn f p ks m
    else detours as scn f p ks m

/-- R438, R439: the routes of one scene of a relocated image changed for the fused tile `f` at column `fx`. -/
def routeAround (m : Mem) (as : List Nat) (scn f fx : Nat) : Option Mem :=
  let slid := (List.range (4 - fx)).map (· + 1)
  if slid.any fun j => match findBlock m as scn (f + j) with
      | some a => slideBad m a (j == 1)
      | none => false then none
  else match findBlock m as scn (f - 1) with
  | none => none
  | some p => detours as scn f p (List.range 20) m

/-- The routes of every scene that the image holds changed. -/
def routeScenes (as : List Nat) (f fx : Nat) : List Nat → Mem → Option Mem
  | [], m => some m
  | k :: ks, m =>
    if as.any fun a => hdScn (m.dbl a) == k then
      match routeAround m as k f fx with
      | none => none
      | some m => routeScenes as f fx ks m
    else routeScenes as f fx ks m

/-- R440: the blocks of an image copied, each CRC checked and each TILE placed; the memory and the code. -/
def copyBlocks (r : Reloc) : List Nat → Nat → Mem → Mem × Nat
  | [], _, m => (m, 0)
  | a :: as, d, m =>
    let n := blockLen (m.dbl a)
    if !crcOk m a then (m, 0x36)
    else
      let m := m.writeList d (m.readList a n)
      match r.place (hdTile (m.dbl a)) with
      | none => (m, 0x30)
      | some t => copyBlocks r as (d + n)
          (m.writeN d 8 ((m.dbl a &&& ~~~(0xFFF00000 : Dbl)) ||| BitVec.ofNat 64 (t * 2 ^ 20)).toNat)

/-- R95, R99: the CRC of every block written afresh. -/
def sealBlocks : List Nat → Mem → Mem
  | [], m => m
  | a :: as, m =>
    let n := blockLen (m.dbl a) - 8
    sealBlocks as (m.writeN (a + n) 4 (crc32c (m.readList a n)).toNat)

/-- R437, R439: the header of a relocatable image and the request allow relocation. -/
def relocOk (m : Mem) (src : Nat) (rect : W32) (fused : Option (Nat × Nat)) (fyIn : Bool) : Bool :=
  let h := m.dbl src
  (h &&& ~~~(0x0FFF0000 : Dbl) == 0xA901000330000000) && m.readN (src + 0x10) 8 == 0 && rect.getLsbD 31
    && (rect.extractLsb' 12 4 == 0) && (rect.extractLsb' 8 1 == 0) && (rect.extractLsb' 8 4).toNat ≤ 12
    && (rect.extractLsb' 0 4 == 3) && fyIn &&
    match fused with
    | some (fx, fy) => (rect.extractLsb' 4 4 == 4) && 1 ≤ fx && fx ≤ 2 && (fy == 0 || fy == 2)
    | none => rect.extractLsb' 4 4 == 3

/-- R438 to R440: relocation of a verified image under the request at `q`: the memory and the code. [log 44 DEDUCED] -/
def relocate (m : Mem) (q : Nat) : Mem × Nat :=
  let src := m.readN q 8
  let dst := m.readN (q + 8) 8
  let rect := m.word (q + 0x10)
  let die := m.readN (q + 0x14) 4 % 8
  let fw := m.readN (q + 0x18) 8
  let y0 := (rect.extractLsb' 8 4).toNat
  let fv := fw / 256 % 2 == 1
  let fused := if fv then some (fw % 16, fw / 16 % 16 - y0) else none
  if !(relocOk m src rect fused (!fv || decide (y0 ≤ fw / 16 % 16))) then (m, 0x30)
  else
    let nblk := imNblk (m.dbl src)
    let len := m.readN (src + 8) 8
    let as := blockAddrs m nblk (src + 64)
    let ds := as.map fun a => a - src + dst
    let head := 0xA901 * 2 ^ 48 + die * 2 ^ 44 + rect.toNat % 65536 * 2 ^ 28 + nblk * 2 ^ 16
    let m := ((m.writeN dst 8 head).writeN (dst + 8) 8 len).writeN (dst + 0x10) 8 (m.readN (q + 0x20) 8)
    let m := m.writeList (dst + 0x18) (List.replicate 40 0)
    match copyBlocks { dst := dst, die := die, y0 := y0, fused := fused } as (dst + 64) m with
    | (m, 0) =>
      if (as.map fun a => blockLen (m.dbl a)).foldl (· + ·) 0 ≠ len then (m, 0x30)
      else match fused with
        | none => (sealBlocks ds m, 0)
        | some (fx, fy) => match routeScenes ds ((y0 + fy) * 16 + fx) fx (List.range 4) m with
          | none => (m, 0x30)
          | some m => (sealBlocks ds m, 0)
    | (m, e) => (m, e)

/-- R440: the result of a relocation request. -/
def State.endReloc (s : State) (q code : Nat) : State :=
  let s := { s with ctl := { s.ctl with relocs := s.ctl.relocs.filter (· ≠ q) } }
  s.store (q + 0x38) 8 (2 ^ 63 + code)

/-- R11, R440: a control die reaches all that a relocation request at `q` names. -/
def relocReach (s : State) (d : Fin 2) (q : Nat) : Bool :=
  let here (pa : Nat) : Bool := s.controlReaches d pa && !s.fencedMem pa
  here q && here (s.mem.readN q 8) && here (s.mem.readN (q + 8) 8) && here (s.mem.readN (q + 0x30) 8)

/-- R440: RELOCATION_REQUEST: the routine asks the security core to verify the image, and relocates it once the
answer has come. -/
def execRelocationRequest (cdie core : Nat) (pa : Nat) (s : State) : Host.Outcome State Fault Refusal :=
  let m := s.mem
  let d : Fin 2 := Fin.ofNat 2 cdie
  if !(relocReach s d pa) || (s.cdie d).failed || (s.mcore d (Fin.ofNat 8 core)).held then .next s
  else if !(populated pa && populated (m.readN pa 8) && populated (m.readN (pa + 8) 8) && populated (m.readN (pa + 0x30) 8)) then
    .fault (.unpopulated pa)
  else
    let src := m.readN pa 8
    let ans := m.readN (pa + 0x30) 8
    .next (if !s.ctl.relocs.contains pa then
        let s := s.store ans 8 0
        match ringPutPhys s (m.readN (pa + 0x28) 8) 5
            (leBytes 8 src ++ leBytes 8 (64 + m.readN (src + 8) 8) ++ leBytes 8 ans ++ leBytes 8 0) with
        | some s => { s with ctl := { s.ctl with relocs := s.ctl.relocs ++ [pa] } }
        | none => s
      else
        let v := m.readN ans 8
        if v < 2 ^ 63 then s
        else if v % 256 ≠ 0 then s.endReloc pa 0x37
        else
          let (m, code) := relocate m pa
          { s with mem := m }.endReloc pa code)

end Sys2Proof.Machine
end

