-- ==== Sys2Proof/Machine/Rollback.lean ====
section
/-! DEFINITION. Rollback to a mark cut and the faults that cause it (R260, R303, R376 to R378), SCENE.RUN (R133) and
the stall watchdog (R379). -/
namespace Sys2Proof.Machine

/-! ## The tiles -/

/-- Whether both ends of a branch lie in the region of an act. -/
def State.insideRegion (s : State) (id : Nat) (l : Link) : Bool := s.mine id l.src && s.inRegion id l

/-- R376: credits that outgoing tokens of a tile have taken on branches into other regions given back. -/
def State.unpay (s : State) (id : Nat) (t : TileId) : State :=
  (s.tile t).outq.foldl (fun s p =>
    if !p.paid then s
    else (s.branches id t p.out p.scene).foldl (fun s b =>
      if s.inRegion id b.1 then s
      else { s with fab := { s.fab with windows := assocSet b.1 (tally b.1 s.fab.windows - 1) s.fab.windows } }) s) s

/-- R374, R376: what a rollback leaves at input `i` of a tile: its replay store, then the tokens of other regions that
the entry has not delivered. -/
def rolledInput (mine : TileId → Bool) (x : Tile) (t : TileId) (cycle cur i : Nat) : List BufTok :=
  let old := (x.replay.filter (·.1 == i)).map fun e =>
    { tok := { e.2.2 with sc := BitVec.ofNat 2 cur }, valid := cycle,
      link := { src := t, out := 0, scene := cur, dest := .off }, hops := 1, credit := false, entered := true, bad := false : BufTok }
  old ++ ((x.inbuf[i]?).getD []).filter fun b => b.credit && !mine b.link.src

/-- R374, R376: a tile at its cut: buffers discarded, elements as the shadow holds them, replay stores redelivered. What they hold stands
before the next mark, behind which no token of them has come. -/
def Tile.rolled (x : Tile) (mine : TileId → Bool) (t : TileId) (cycle cur : Nat) : Tile :=
  let st := x.shadow.getD x.st
  { x with
    st := { x.st with scenes := st.scenes, node := st.node }, inbuf := (List.range 4).map (rolledInput mine x t cycle cur),
    outq := [], pipeNext := 0, nodeNext := 0, portNext := List.replicate 8 0, lastPipe := none, lastNode := none, shadowNew := none,
    replay := x.replay.map fun e => (e.1, none, e.2.2) }

/-- R223, R376: a queue at the position that a cut recorded. The commands completed since then stand at its head
again. [log 49 DEDUCED] -/
def Queue.rolled (x : Queue) (p : CmdPos) : Queue :=
  let redo := (x.past.filter fun e => decide (p.fin ≤ e.1)).map fun e => { e.2 with again := true }
  let whole := x.fin == p.fin + redo.length
  let headStream := match redo ++ x.entries with
    | e :: _ => tokenCmd e.cmd
    | [] => false
  { x with
    entries := redo ++ x.entries, fin := x.fin - redo.length, past := x.past.filter fun e => decide (e.1 < p.fin),
    active := if headStream then (if whole then p.active else none) else if redo = [] then x.active else none,
    bcast := p.bcast, state := if x.state = 0 && redo ≠ [] then 1 else x.state }

/-- R223: the queues of a tile's address generator, and the positions that its shadow holds. -/
def State.rollQueues (s : State) (t : TileId) : State :=
  let old := ((s.tile t).shadow.getD (s.tile t).st).pos
  (s.positions t).foldl (fun s n =>
    let p := (old.find? fun o => o.q == n.q).getD { q := n.q, fin := 0, active := none, rd := false, bcast := none }
    s.updQueue n.q (·.rolled p)) s

/-! ## The scene slots (R260) -/

/-- R260: a slot's contents have changed since the cut, or may have. -/
def slotChanged (now cut : SceneSlot) : Bool :=
  now.image != cut.image || now.st == .empty || now.st == .loading || now.job.isSome

/-- R260: slot `k` of a region as it stood at the cut, with the load that was pending there. The scene-end curtains placed before the
cut's mark have passed every sink before it (R64, R373), so none is pending at the cut. [log 50 DEDUCED] -/
def State.rollSlot (s : State) (id : Nat) (now cut : SceneSlot) (k : Nat) : State :=
  let put (s : State) (x : SceneSlot) : State := s.updAct id fun a => a.updSlot k fun _ => { x with ends := 0 }
  match cut.st with
  | .empty => put (s.emptySlot id k) cut
  | .loading => put { s with eng := { s.eng with serial := s.eng.serial + 1 } }
      { cut with job := cut.job.map fun j => { j with no := s.eng.serial, begun := false } }
  | _ => put { (if slotChanged now cut then s.reloadSlot id k cut.image else s) with
        eng := { s.eng with serial := s.eng.serial + 1 } }
      { cut with job := cut.job.map fun j => { j with no := s.eng.serial } }

/-! ## The act -/

/-- R271, R376: the act as the cut recorded it, at the start of its replay log; SCRFLT and SCRST stay. [log 50 DEDUCED] -/
def Act.rolled (a : Act) (c : Cut) : Act :=
  { a with
    life := a.life.rerun,
    regs := { c.regs with scrflt := a.regs.scrflt, scrMore := a.regs.scrMore, scrWr := a.regs.scrWr, scrV := a.regs.scrV },
    issue := c.issue, taskOpen := c.taskOpen, taskDone := c.taskDone, ctx := c.ctx, ctxStack := c.ctxStack, phases := c.phases,
    region := { c.region with slots := a.region.slots }, loopBuf := [], seqw := none, evtw := none, fenceS := none, fences := c.fences,
    wingStall := false, curtain := none, cutRun := none, cutNew := none, markDue := 0,
    ends := (a.ends.filter fun w => !w.counts && w.scene != c.region.cur).map fun w => { w with num := none },
    log := a.log.map fun e => { e with used := false, pre := false }, replay := a.log != [],
    stalled := 0, lastStall := none }

/-- R303: the wing lines that an act first wrote after its `nth` mark discarded. -/
def State.dropLines (s : State) (id nth : Nat) : State :=
  let keep (l : WingLine) : Bool := !(l.act == id && decide (nth ≤ l.nth))
  let cs := s.ctxs.map fun p =>
    (p.1, { p.2 with tasks := p.2.tasks.map fun t => { t with lines := t.lines.filter keep } })
  { s with ctxs := cs }

/-- R376: the region of act `id` returns to its cut `c`, with its gates closed. [log 48 DEDUCED, 50 DEDUCED] -/
def State.rollback (s : State) (id : Nat) (c : Cut) : State :=
  let r := (s.act id).region
  let cur := c.region.cur
  let ts := s.ownTiles id
  let s := ts.foldl (fun s t => s.unpay id t) s
  let s := ts.foldl (fun s t => s.rollQueues t) s
  let s := (List.range 4).foldl (fun s k =>
    match r.slots[k]?, c.region.slots[k]? with
    | some now, some cut => s.rollSlot id now cut k
    | _, _ => s) s
  let s := ts.foldl (fun s t => s.updTile t fun x => x.rolled (s.mine id) t s.cycle cur) s
  let s := { s with fab := { s.fab with
    windows := s.fab.windows.filter fun w => !s.insideRegion id w.1,
    returns := s.fab.returns.filter fun w => !s.insideRegion id w.2,
    requests := s.fab.requests.filter fun w => !s.insideRegion id w.1,
    drops := s.fab.drops.filter fun d => !s.mine id d.link.src } }
  -- R260, R443: a running load is abandoned.
  let ls := s.ctl.loads.map fun r : LoadRun => if r.act = id then { r with dead := true } else r
  let s := { s with ctl := { s.ctl with loads := ls } }
  let s := s.dropLines id c.nth
  let s := s.updAct id fun a => (a.rolled c).updRegion fun g => { g with gates := 0 }
  let s := fillLoop s id (s.act id).regs.lbase (s.act id).regs.loopSpan
  (s.settle id).leaveDead id

/-- R136, R370: the curtain of a switch-out, which the rollback has discarded, is started again. -/
def State.restartCurtain (s : State) (id : Nat) (old : Option MarkerRun) : State :=
  match old with
  | some c => if c.reason = 4 then s else s.startCurtain id c.reason
  | none => s

/-- R378: no cut is available: the act is stopped with 0x50, and its region with it. [log 51 DEDUCED] -/
def State.stopForGood (s : State) (id : Nat) (t : TileId) : State :=
  let s := s.updAct id fun a => { a with noCut := true, region := { a.region with gates := 0 } }
  let s := s.trapAt id (s.act id).regs.acpc 0x50 (structArg 3 t.die t.tile 0 0)
  s.updAct id fun a => match a.life with
    | .trapped _ => { a with life := .stopped }
    | _ => a

/-- R377: the region of act `id` held at its cut: no element takes what the replay stores have delivered again, and no source places a
token, until SCENE.GATE opens a gate. [log 123 DEDUCED] -/
def State.holdAtCut (s : State) (id : Nat) : State :=
  let hold (x : Tile) : Tile := { x with inbuf := x.inbuf.map fun l => l.map fun b => { b with entered := false } }
  let s := (s.ownTiles id).foldl (fun s t => s.updTile t hold) s
  s.updAct id fun a => a.updRegion fun g => { g with quiet := true }

/-- R378: the place of a shadow that a rollback of act `id` must restore and cannot: that of the prompter, which stands for the tile at the
corner of the region, or the lowest of its tiles. -/
def State.lostShadow (s : State) (id : Nat) : Option TileId :=
  if s.fab.badShadows.contains id then some { die := (s.act id).region.die, tile := tileIndex (s.act id).region.x0 (s.act id).region.y0 }
  else argMin (fun t => t.tile) ((s.ownTiles id).filter fun t => (s.tile t).shadowBad)

/-- R376, R377: a fault in the region of act `id`: a rollback, and at the second time the trap, with every gate closed. -/
def State.regionFault (s : State) (id : Nat) (code : Byte) (arg : Dbl) : State :=
  let a := s.act id
  match s.lostShadow id with
  | some t => s.stopForGood id t
  | none =>
    match a.cut with
    | none => s.trapAt id a.regs.acpc code arg
    | some c =>
      let s := ((s.rollback id c).count a.ctx 0x52 1).traceAct 0x05 id code.toNat c.num.toNat
      if a.retried.contains code then
        ((s.holdAtCut id).restartCurtain id a.curtain).trapAt id (s.act id).regs.acpc code arg
      else
        let s := s.updAct id fun a =>
          { a with retried := code :: a.retried, region := { a.region with gates := c.region.gates } }
        s.restartCurtain id a.curtain

/-- R376: ROLLBACK: a fault 0x20 or 0x50 of a region takes it to its last complete cut. -/
def execRollback (act : Nat) (code : Byte) (arg : Dbl) (s : State) : Host.Outcome State Fault Refusal :=
  .next (if !(s.act act).present || (code ≠ 0x20 && code ≠ 0x50) then s else s.regionFault act code arg)

/-! ## Heads and the stall fault (R377, R379) -/

/-- R63, R379: some element of a tile holds a data token at the head of a named input. -/
def dataAtHead (s : State) (t : TileId) : Bool :=
  (List.range 4).any fun sc => match s.cfg t sc with
    | none => false
    | some c => ([.pipe, .node, .agen] : List Element).any fun e => c.has e && (c.inputsOf e).any fun i =>
        match s.head t i with
        | some b => isData b && b.tok.sc.toNat == sc
        | none => false

/-- R377: FAULTARG of fault 0x20: the lowest tile with a data token at a head, and otherwise tile `t`. -/
def stallArg (s : State) (id t : Nat) : Dbl :=
  match argMin (fun t => t.tile) ((s.ownTiles id).filter (dataAtHead s)) with
  | some t => BitVec.ofNat 64 t.tile
  | none => BitVec.ofNat 64 t

/-- R379: the stall limit of the act's partition, in intervals. -/
def stallLimit (s : State) (id : Nat) : Nat :=
  match s.part? (s.ctx (s.act id).ctx).part with
  | some p => if p.spec.stall = 0 then 50 else p.spec.stall
  | none => 50

/-- R379: whether the watchdog of a region fires at this interval boundary. -/
def watchdogFires (s : State) (id : Nat) : Bool :=
  let a := s.act id
  let n := stallLimit s id * 2300
  s.cycle % 2300 == 0 && decide (n ≤ a.stalled) && !a.excluded && a.present &&
  match a.lastStall with
  | some c => decide (s.cycle ≤ c + n)
  | none => false

/-- R379: STALL_WATCHDOG. -/
def execStallWatchdog (act : Nat) (s : State) : Host.Outcome State Fault Refusal :=
  .next (if watchdogFires s act then s.regionFault act 0x20 (stallArg s act 0) else s)

/-! ## SCENE.RUN (R133) -/

/-- R259, R273: the argument for a parity error in slot `k` of a tile. -/
def parityArg (s : State) (t : TileId) (k : Nat) : Dbl :=
  let off := (argMin (fun p => p.2) ((s.tile t).parity.filter (·.1 == k))).map (·.2)
  structArg 5 t.die t.tile k (off.getD 0)

/-- R133: SCENE.RUN past the wait for the slot's load. -/
def runSlot (i : Instr) (k : Nat) (s : State) : State :=
  if s.cur.region.cur = k then (s.updCur fun a => a.updRegion fun r => { r with arm := false, tgt := 0 }).retire
  else match (s.cur.slot k).st with
  | .empty => s.trap 0x01 (wordArg i)
  | .loading => s
  | _ =>
    match s.parityTile s.me k with
    | some t =>
      let arg := parityArg s t k
      (s.emptySlot s.me k).regionFault s.me 0x50 arg
    | none => (s.runScene s.me k).retire

/-- R133, R265: SCENE.RUN. -/
def execSceneRun (k : BitVec 2) (s : State) : Host.Outcome State Fault Refusal :=
  .next (afterStroke s fun s => afterLoad s k.toNat (runSlot (.sceneRun k) k.toNat))

end Sys2Proof.Machine
end

