-- ==== Sys2Proof/Machine/Tids.lean ====
section
/-! DEFINITION. Tensor identifiers and operand memory (R156, R157, R275 to R279). -/
namespace Sys2Proof.Machine

/-! ## The descriptor (R277, R278) -/

/-- R277: the eight doubles of a descriptor as an entry. -/
def TensorEntry.ofWords (w : Nat → Dbl) : TensorEntry :=
  { base := w 0, d0 := (w 1).extractLsb' 0 32, d1 := (w 1).extractLsb' 32 32, d2 := (w 2).extractLsb' 0 32, s0 := w 3,
    s1 := w 4, s2 := w 5, scb := w 6, fmt := (w 7).extractLsb' 0 4, p := (w 7).extractLsb' 4 3,
    read := (w 7).extractLsb' 8 2, space := (w 7).getLsbD 10, spn := (w 7).extractLsb' 11 6,
    blk := (w 7).extractLsb' 17 8, v := (w 7).getLsbD 63 }

/-- R277: the double at 0x38 of an entry. -/
def TensorEntry.flags (t : TensorEntry) : Nat :=
  t.fmt.toNat + t.p.toNat * 2 ^ 4 + t.read.toNat * 2 ^ 8 + t.space.toNat * 2 ^ 10 + t.spn.toNat * 2 ^ 11
    + t.blk.toNat * 2 ^ 17 + t.v.toNat * 2 ^ 63

/-- R277: an entry as the 64 bytes that TID.GET stores. -/
def TensorEntry.bytes (t : TensorEntry) : Nat :=
  t.base.toNat + 2 ^ 64 * (t.d0.toNat + 2 ^ 32 * t.d1.toNat) + 2 ^ 128 * t.d2.toNat + 2 ^ 192 * t.s0.toNat
    + 2 ^ 256 * t.s1.toNat + 2 ^ 320 * t.s2.toNat + 2 ^ 384 * t.scb.toNat + 2 ^ 448 * t.flags

/-- R277: an entry at its reset value. -/
def TensorEntry.zero : TensorEntry := TensorEntry.ofWords fun _ => 0

/-- R278: the checks of TID.DEF. -/
def tensorOk (w : Nat → Dbl) : Bool :=
  let t := TensorEntry.ofWords w
  let f := t.fmt.toNat
  let b8 := f == 11 || f == 12
  ((w 2).extractLsb' 32 32 == 0) && !((w 7).getLsbD 7) && ((w 7).extractLsb' 25 38 == 0) && decide (f < 13)
    && (if b8 then t.p != 0 && t.read != 3 else t.p == 0 && t.read == 0)
    && t.d0 != 0 && decide (t.spn.toNat ≤ 32)
    && (t.blk == 0 || (t.blk == 32 && (f == 9 || f == 10)))

/-! ## The TID group -/

/-- R225: a command names a tensor identifier in TID or, for a copy, in DTID. -/
def namesTid (cmd : Quad) (n : Nat) : Bool :=
  (cmdNamesTensor (cmdOpc cmd) && cmdTid cmd == n)
    || ((cmdOpc cmd == 0x10 || cmdOpc cmd == 0x11) && bits (cmdOps cmd) 0 8 == n)

/-- R156: some command already issued in a context names tN and has not retired. -/
def tidBusy (s : State) (ctx n : Nat) : Bool :=
  ((s.eng.queues ++ s.sch.green.flatMap (·.queues)).any fun p => p.2.entries.any fun e => e.ctx == ctx && namesTid e.cmd n)
    || s.acts.any fun p => p.2.issue.any fun e => e.ctx == ctx && namesTid e.cmd n && (match e.kind with
        | .join _ => false
        | _ => true)

/-- The entry tN of a context, as TID.GET stores it. -/
def Ctx.tid (c : Ctx) (n : Nat) : TensorEntry := (assoc? n c.tids).getD TensorEntry.zero

/-- The entry tN of a context replaced. -/
def State.setTid (s : State) (ctx n : Nat) (t : TensorEntry) : State :=
  s.updCtx ctx fun c => { c with tids := assocSet n t c.tids }

/-- R156, R278: TID.DEF past its waits. -/
def tidDefFrom (i : Instr) (n : Nat) (ea : Dbl) (s : State) : Did :=
  match promptAccess s ea 64 .read with
  | (.wait, s) => .wait s
  | (.fault c x, s) => .trap s c x
  | (.ok pa, s) =>
    let w : Nat → Dbl := fun k => BitVec.ofNat 64 (s.mem.readN (pa + 8 * k) 8)
    let s := s.recordPrompter s.me false ea 64
    if tensorOk w then .done (s.setTid s.cur.ctx n (TensorEntry.ofWords w)) 0 else .trap s 0x01 (wordArg i)

/-- R156: TID.DEF. -/
def execTidDef (a : Reg) (n : BitVec 8) (s : State) : Host.Outcome State Fault Refusal :=
  .next ((needTask (.tidDef a n) s fun s => whenOldest s fun s =>
    if (s.g a).toNat % 64 ≠ 0 then .trap s 0x03 (s.g a)
    else if tidBusy s s.cur.ctx n.toNat then .wait s
    else tidDefFrom (.tidDef a n) n.toNat (s.g a) s).end)

/-- R156: TID.GET. -/
def execTidGet (a : Reg) (n : BitVec 8) (s : State) : Host.Outcome State Fault Refusal :=
  .next ((needTask (.tidGet a n) s fun s => storeAt s (s.g a) 64 (s.curCtx.tid n.toNat).bytes).end)

/-- R156: TID.DROP. -/
def execTidDrop (n : BitVec 8) (s : State) : Host.Outcome State Fault Refusal :=
  .next ((whenOldest s fun s =>
    if tidBusy s s.cur.ctx n.toNat then .wait s
    else .done (s.setTid s.cur.ctx n.toNat { s.curCtx.tid n.toNat with v := false }) 0).end)

/-! ## Operand slots -/

/-- An operand slot of a tile. -/
def Tile.opSlot (x : Tile) (k : Nat) : OpSlot := (x.slots[k]?).getD OpSlot.empty

/-- The sixteen slots of a tile, each changed by `f` where `m` names it. -/
def Tile.mapSlots (x : Tile) (m : Dbl) (f : OpSlot → OpSlot) : Tile :=
  { x with
    slots := (List.range 16).map fun k => if m.getLsbD k then f (x.opSlot k) else x.opSlot k,
    written := (List.range 16).filter fun k => m.getLsbD k || x.written.contains k }

/-- R157: the M-tile of the region that ra names. -/
def opmTile (r : RegionSt) (v : Dbl) : Option TileId :=
  let x := v.toNat % 256
  let y := v.toNat / 256 % 256
  let t := tileIndex (r.x0 + x) (r.y0 + y)
  if x < r.w && y < r.h && isMTile t then some { die := r.die, tile := t } else none

/-- R157, R195, R275: a slot claimed: its scale fields are zero, and a slot of another context reads as zero until it is
filled. -/
def OpSlot.claim (x : OpSlot) (act ctx : Nat) : OpSlot :=
  if x.lastCtx = some ctx then { x with owner := some act, sb := [0, 0, 0, 0] }
  else { x with owner := some act, bytes := [], sb := [0, 0, 0, 0], poison := [] }

/-- R157: the named slots of a tile. -/
def slotMask (v : Dbl) : Dbl := v &&& 0xFFFF

/-- R429, R430: whether the repair map lists an operand slot of a tile. -/
def State.slotListed (s : State) (t : TileId) (k : Nat) : Bool :=
  s.fab.repair.any fun w => (w.extractLsb' 29 3).toNat == t.die && (w.extractLsb' 27 2 == 2)
    && (w.extractLsb' 15 12).toNat == t.tile && (w.extractLsb' 11 4).toNat == k

/-- R157, R430: whether an operand slot is free: it has no owner, and the repair map does not list it. -/
def State.opSlotFree (s : State) (t : TileId) (k : Nat) : Bool := ((s.tile t).opSlot k).owner.isNone && !s.slotListed t k

/-- R157: OPM.CLAIM on a tile. -/
def claimSlots (s : State) (t : TileId) (m : Dbl) : Did :=
  if (List.range 16).all fun k => !m.getLsbD k || s.opSlotFree t k then
    .done (s.updTile t fun x => x.mapSlots m (·.claim s.me s.cur.ctx)) 1
  else .done s 0

/-- R157, R200: a slot that a matrix node word of a scene names as B. -/
def TileCfg.namesSlot (c : TileCfg) (k : Nat) : Bool :=
  c.node && decide (nodeMode c.nodeWord < 2)
    && (nodeBS c.nodeWord == k || (nodeAF c.nodeWord && nodeBS c.nodeWord + 1 == k))

/-- R157, R236: some scene that the tile still holds, under the act that governs it, names a slot as B. -/
def slotNamed (s : State) (t : TileId) (k : Nat) : Bool :=
  (List.range 4).any fun sc => s.holdsScene (s.act ((s.ownerOf t).getD s.me)) t sc && match s.cfg t sc with
    | some c => c.namesSlot k
    | none => false

/-- R157: the named slots that the act owns. -/
def ownedMask (s : State) (t : TileId) (m : Dbl) : Dbl :=
  (List.range 16).foldl (fun v k => if m.getLsbD k && ((s.tile t).opSlot k).owner == some s.me
    then v ||| BitVec.ofNat 64 (2 ^ k) else v) 0

/-- R157: OPM.RELEASE on a tile. -/
def releaseSlots (s : State) (t : TileId) (m : Dbl) : Did :=
  let own := ownedMask s t m
  if (List.range 16).any fun k => own.getLsbD k && slotNamed s t k then .wait s
  else
    let ctx := s.cur.ctx
    .done (s.updTile t fun x => x.mapSlots own fun y => { y with owner := none, lastCtx := some ctx }) own

/-- R157, R279: OPM.CLAIM. -/
def execOpmClaim (d a b : Reg) (s : State) : Host.Outcome State Fault Refusal :=
  .next ((whenOldest s fun s => match opmTile s.cur.region (s.g a) with
    | none => .trap s 0x12 (s.g a)
    | some t => claimSlots s t (slotMask (s.g b))).finish d)

/-- R157, R279: OPM.RELEASE. -/
def execOpmRelease (d a b : Reg) (s : State) : Host.Outcome State Fault Refusal :=
  .next ((whenOldest s fun s => match opmTile s.cur.region (s.g a) with
    | none => .trap s 0x12 (s.g a)
    | some t => releaseSlots s t (slotMask (s.g b))).finish d)

end Sys2Proof.Machine
end

