-- ==== Sys2Proof/Machine/Green.lean ====
section
/-! DEFINITION. Switch-out and restore: the green room (R370 to R372, R380 to R383), the drain at a page fault (R285,
R286) and revocations that no act waits for (R364, R383). -/
namespace Sys2Proof.Machine

/-! ## The green room (R380, R381) -/

def State.greenOf (s : State) (id : Nat) : Option GreenRoom := s.sch.green.find? fun g => g.act.id == id

/-- R380: the elements that the write commands of a port tile have consumed and not stored. -/
def State.heldElems (s : State) (t : TileId) : Nat :=
  (s.eng.queues.filter fun p => s.serverOf p.1 == some (.agen t.die (t.tile - 256))).foldl (fun n p =>
    match p.2.active with
    | some a => n + (a.saved.map List.length).foldl (· + ·) 0
    | none => n) 0

/-- R380: the chunks that a port tile's withheld elements need; how an element is laid out is left open, so their
number is a free value from 1 to the number of elements. -/
def State.heldChunks (s : State) (id : Nat) : Nat × State :=
  (s.ownTiles id).foldl (fun p t =>
    let n := if t.tile < 256 then 0 else p.2.heldElems t
    if n = 0 then p
    else
      let (x, s) := p.2.free
      (p.1 + 1 + x % n, s)) (0, s)

/-- R380: the saved tile, if the green room holds one. -/
def GreenRoom.tile (g : GreenRoom) (t : TileId) : Option Tile := assoc? t g.tiles

/-- The port queues of a region's port tiles. -/
def State.portQueues (s : State) (id : Nat) : List (QueueId × Queue) :=
  s.eng.queues.filter fun p => match p.1 with
    | .port die k => (s.ownTiles id).contains { die := die, tile := 256 + k }
    | .ctx _ _ => false

/-- R380, R381: the chunks of the two kinds of a tile that are dirty: its state and its buffers. [log 55 DEDUCED] -/
def dirtyTile (g : GreenRoom) (x : Tile) (ws : List (Link × Nat)) (t : TileId) : Bool × Bool :=
  match g.tile t with
  | none => (true, true)
  | some y =>
    let of (l : List (Link × Nat)) : List (Link × Nat) := l.filter fun w => w.1.src == t
    (x.fired || x.st != y.st,
     x.touched || x.inbuf != y.inbuf || x.outq != y.outq || x.replay != y.replay || of ws != of g.windows)

/-- R380: the operand slots of a tile that an act owns, by number. -/
def ownedSlots (x : Tile) (id : Nat) : List (Nat × OpSlot) :=
  (List.range 16).filterMap fun k => if (x.opSlot k).owner = some id then some (k, x.opSlot k) else none

/-- R381: which chunks a save writes, in chunk order; the first save, and one into another room, writes all. Chunk 0 holds the region's
marker number, which the curtain has moved. -/
def dirtyChunks (s : State) (id : Nat) (ws : List (Link × Nat)) (held : Nat) (old : Option GreenRoom) : List Bool :=
  let a := s.act id
  match old with
  | none =>
    true :: (List.replicate (2 * a.region.tiles.length + held) true
      ++ (s.ownTiles id).flatMap fun t => (ownedSlots (s.tile t) id).map fun _ => true)
  | some g =>
    let names (f : TileId → Tile) : List (TileId × Nat) := (s.ownTiles id).flatMap fun t => (ownedSlots (f t) id).map fun x => (t, x.1)
    let same := g.held == held && names s.tile == names fun t => (g.tile t).getD Tile.empty
    true :: (a.region.tiles.flatMap (fun t =>
        if s.ownerOf t = some id then
          let (p, q) := dirtyTile g (s.tile t) ws t
          [p, q]
        else [false, false])
      ++ List.replicate held true
      ++ (s.ownTiles id).flatMap fun t => (ownedSlots (s.tile t) id).map fun x => !same || (s.tile t).written.contains x.1)

/-- R382: the chunks after a save: those that it writes are `new`, and the others stand. -/
def newChunks (old : List Chunk) (dirty : List Bool) (new : Chunk) : List Chunk :=
  (List.range dirty.length).map fun i => if dirty[i]?.getD true then new else (old[i]?).getD new

/-! ## The save (R370) -/

/-- A tile of a region that has been saved: released, with the slots of others and its tag kept. -/
def Tile.vacated (x : Tile) (id : Nat) : Tile :=
  { Tile.empty with
    tag := x.tag, weak := x.weak,
    slots := x.slots.map fun y => if y.owner = some id then OpSlot.empty else y,
    written := x.written.filter fun k => (x.opSlot k).owner != some id }

/-- R67, R370: credits on their way inside a region are back before it is saved. -/
def State.settleCredits (s : State) (id : Nat) : State :=
  let (mine, rest) := s.fab.returns.partition fun w => s.insideRegion id w.2
  let ws := mine.foldl (fun ws w => assocSet w.2 (tally w.2 ws - 1) ws) s.fab.windows
  { s with fab := { s.fab with returns := rest, windows := ws } }

/-- R380, R401: the green room of an act that is about to be saved in `n` chunks: the one that a dispatch names, or the one it has, or
another where that is too small; and the room that it has had, if it stays in it. -/
def State.roomOfSave (s : State) (id n : Nat) : ((Nat × Nat) × Option GreenRoom) × State :=
  let a := s.act id
  let size := roomBytes (n + 8 * a.window.length)
  match a.room, s.greenOf id with
  | some x, g => (((x.toNat, if populated x.toNat && populated (x.toNat + size - 1) then size else 0),
      g.bind fun g => if g.addr = x then some g else none), s)
  | none, some g => if size ≤ g.size then (((g.addr.toNat, g.size), some g), s)
      else let (p, s) := s.roomPlace (s.ctx a.ctx).part size
           ((p, none), s)
  | none, none => let (p, s) := s.roomPlace (s.ctx a.ctx).part size
                  ((p, none), s)

/-- R370, R380: act `id` saved to its green room, and its tiles released; the number of chunks written. [log 58 DEDUCED] -/
def State.save (s : State) (id reason : Nat) (gates : Dbl) : Nat × State :=
  let s := s.settleCredits id
  -- R322: the rate declared for the interval is kept beside its firings.
  let d := matrixDecl (s.declared id s.interval) (s.nodeCycles id)
  let s := s.updAct id fun a => { a with mxDecl := Nat.max a.mxDecl d }
  let a := s.act id
  let ts := s.ownTiles id
  let ws := s.fab.windows.filter fun w => s.insideRegion id w.1
  let (held, s) := s.heldChunks id
  let n := (s.ctx a.ctx).saveCtr + 1
  let ((place, old), s) := s.roomOfSave id (dirtyChunks s id ws held none).length
  let dirty := dirtyChunks s id ws held old
  let (x, s) := s.free
  let new : Chunk := { act := id, counter := n, key := (s.keyOf a.ctx).getD 0, seed := x, count := dirty.length }
  let was := match old with
    | some g => g.chunks
    | none => []
  let g : GreenRoom :=
    { addr := BitVec.ofNat 64 place.1, size := place.2, act := { a with region := { a.region with gates := gates } }, reason := reason,
      tiles := ts.map fun t => (t, s.tile t), queues := s.portQueues id, windows := ws, held := held, banks := [],
      chunks := newChunks was dirty new }
  let s := (s.updCtx a.ctx fun c => { c with saveCtr := n }).writeRoom g a.ctx fun i => (dirty[i]?).getD false
  let queues := s.eng.queues.filter fun q => !(g.queues.any fun p => p.1 == q.1)
  let gs := s.sch.green.filter fun x => x.act.id != id
  let no := s.eng.serial
  let s := { s with
    sch := { s.sch with green := gs ++ [g] },
    fab := { s.fab with windows := s.fab.windows.filter fun w => !s.insideRegion id w.1 },
    eng := { s.eng with queues := queues, serial := s.eng.serial + 1 } }
  let s := ts.foldl (fun s t => s.updTile t (·.vacated id)) (s.keepFed id (some id))
  -- R324: pending and running cues are dropped. A load in progress is asked for afresh at the restore.
  let slots := a.region.slots.map fun sl => { sl with job := sl.job.map fun j => { j with no := no, begun := false } }
  let s := s.updAct id fun a =>
    { a with life := .switchedOut, room := none, region := { a.region with slots := slots }, curtain := none, cues := [], cueEnd := 0, evtw := none, fenceS := none,
             strokeDue := false, wingStall := false, refusing := false, progress := false, excluded := true }
  (dirty.countP fun b => b, s)

/-! ## The restore (R372, R383) -/

/-- The part of an act's own state that changes while it is switched out stays; the rest is as saved. -/
def Act.restored (a : Act) (g : GreenRoom) (x0 y0 : Nat) : Act :=
  { a with
    life := if g.act.life = .halted && a.taskOpen then .running else g.act.life,
    region := { a.region with x0 := x0, y0 := y0 } }

/-- A saved tile put back on a tile, with the operand slots that the act owns. -/
def Tile.restored (x saved : Tile) (id : Nat) : Tile :=
  { saved with
    cfg := [none, none, none, none], parity := [], tag := x.tag, weak := x.weak, fired := false, touched := false, written := x.written,
    slots := (List.range 16).map fun k => if (saved.opSlot k).owner = some id then saved.opSlot k else x.opSlot k }

/-- A branch whose ends have moved with a region. -/
def Link.moved (mv : TileId → TileId) (l : Link) : Link :=
  { l with src := mv l.src, dest := match l.dest with
    | .input t i => .input (mv t) i
    | .hedge t d c => .hedge t d c
    | .listed t => .listed t
    | .away t => .away (mv t)
    | .off => .off }

/-- A tile whose tokens know the moved branches. -/
def Tile.relinked (x : Tile) (mv : TileId → TileId) : Tile :=
  { x with inbuf := x.inbuf.map fun l => l.map fun b => { b with link := b.link.moved mv } }

/-- A port queue moved with its tile. -/
def moveQueue (mv : TileId → TileId) (q : QueueId) : QueueId :=
  match q with
  | .port die k => .port die ((mv { die := die, tile := 256 + k }).tile - 256)
  | .ctx c n => .ctx c n

/-- R372: where a tile of the region goes, and every other tile where it is. -/
def moveOf (r : RegionSt) (x0 y0 : Nat) (t : TileId) : TileId :=
  if r.holds t then shiftTile ((x0 : Int) - r.x0) ((y0 : Int) - r.y0) t else t

/-- R356, R365, R372: whether a saved act may be restored with its region's corner at (x0, y0): the place has the same shape, M-tiles and
port tiles, its listed tiles are the same, its tiles are the partition's and moved to no child, and no act of another tree stands on it. [log 57 DEDUCED] -/
def State.mayPlace (s : State) (id x0 y0 : Nat) : Bool :=
  let a := s.act id
  let r := a.region
  let r' := { r with x0 := x0, y0 := y0 }
  decide (x0 + r.w ≤ 16) && decide (y0 + r.h ≤ 16)
  && r.tiles.map (moveOf r x0 y0) == r'.tiles && r.tiles.all (fun t => isMTile t.tile == isMTile (moveOf r x0 y0 t).tile)
  && r.tiles.all (fun t => s.listed t == s.listed (moveOf r x0 y0 t))
  && s.notMoved a.home r.die (x0, y0, r.w, r.h) && s.ownTag a.ctx r'.tiles
  && (match s.greenOf id with
    | some g => g.banks.all fun p => match p.2.use with
      | .window c => s.bankLoose c p.1
      | _ => true
    | none => true)
  && s.pendingHere.all (fun p => p.die != r.die || r'.tiles.all fun t => !((placeRegion p).holds t))
  && s.acts.all fun p => p.1 == id || !p.2.present || p.2.regionRoot == a.regionRoot
      || p.2.region.die != r.die || r'.tiles.all fun t => !(p.2.region.holds t)

/-- R371, R372: a tile that no act governs, or one of the launch or the spawn tree of act `id`. -/
def State.kinTile (s : State) (id : Nat) (t : TileId) : Bool :=
  match s.ownerOf t with
  | none => true
  | some o => o == id || (s.act o).regionRoot == (s.act id).regionRoot
      || ((s.act o).launch.isSome && (s.act o).launch == (s.act id).launch)

/-- R372: a branch of the act `id` that is restored elsewhere, or of its kin; another launch may hold its old tiles meanwhile. -/
def State.kinLink (s : State) (id : Nat) (l : Link) : Bool :=
  let r := (s.act id).region
  match l.dest with
  | .input t _ => if r.holds l.src == r.holds t then s.kinTile id l.src && s.kinTile id t
      else s.kinTile id (if r.holds t then l.src else t)
  | _ => s.kinTile id l.src

/-- R371, R372: the tokens, the branches and the channels between a region that is restored elsewhere and its kin, and the servers of
its context queues, follow it. -/
def State.relink (s : State) (id : Nat) (mv : TileId → TileId) : State :=
  let root := s.rootOf (s.act id).ctx
  let srv (sv : Server) : Server := match sv with
    | .agen die k => .agen die ((mv { die := die, tile := 256 + k }).tile - 256)
    | .copy d => .copy d
    | .coll d => .coll d
  let q (p : QueueId × Queue) : QueueId × Queue := match p.1 with
    | .ctx c _ => if c = root then (p.1, { p.2 with server := p.2.server.map srv }) else p
    | .port _ _ => p
  let kin (a : Act) : Bool := a.regionRoot == (s.act id).regionRoot || (a.launch.isSome && a.launch == (s.act id).launch)
  let place (l : Link) : Link := if s.kinLink id l then l.moved mv else l
  let tiles := s.fab.tiles.map fun p => match s.ownerOf p.1 with
    | some o => if kin (s.act o) then (p.1, p.2.relinked mv) else p
    | none => p
  let channels := s.fab.channels.map fun c => if kin (s.act c.act) then
      (let l := c.link.moved mv; if l = c.link then c else { c with link := l, path := [] }) else c
  let green := s.sch.green.map fun g =>
    if g.act.id ≠ id && kin g.act then { g with tiles := g.tiles.map fun p => (p.1, p.2.relinked mv) } else g
  { s with
    fab := { s.fab with
      tiles := tiles, channels := channels,
      fed := s.fab.fed.map fun f => if s.kinTile id f.2.1 then (f.1, mv f.2.1, f.2.2) else f,
      windows := s.fab.windows.map fun w => (place w.1, w.2), returns := s.fab.returns.map fun w => (w.1, place w.2),
      requests := s.fab.requests.map fun w => (place w.1, w.2),
      drops := s.fab.drops.map fun d => { d with link := place d.link } },
    eng := { s.eng with queues := s.eng.queues.map q },
    sch := { s.sch with green := green } }

/-- R372: act `id` restored with its region's corner at (x0, y0). The saved tiles that it governs there are written, its
slots are reloaded from their images, and its gates reopen. -/
def State.putBack (s : State) (id : Nat) (g : GreenRoom) (x0 y0 : Nat) : State :=
  let r := (s.act id).region
  let mv := moveOf r x0 y0
  let s := if x0 = r.x0 && y0 = r.y0 then s else s.relink id mv
  let s := s.updAct id fun a => { (a.restored g x0 y0).updRegion (fun r => { r with gates := 0 }) with loopBuf := [] }
  -- R114: the words of an active loop are fetched again.
  let s := fillLoop s id (s.act id).regs.lbase (s.act id).regs.loopSpan
  let mine := g.tiles.filter fun p => s.ownerOf (mv p.1) == some id
  let s := s.dropFed id
  let s := mine.foldl (fun s p => s.updTile (mv p.1) fun x => (x.restored p.2 id).relinked mv) s
  let qs := g.queues.map fun p => (moveQueue mv p.1, { p.2 with id := moveQueue mv p.1 })
  let ws := g.windows.map fun w => (w.1.moved mv, w.2)
  let queues := qs.foldl (fun l p => assocSet p.1 p.2 l) s.eng.queues
  let s := { s with eng := { s.eng with queues := queues }, fab := { s.fab with windows := s.fab.windows ++ ws } }
  let s := (List.range 4).foldl (fun s k =>
    let sl := (s.act id).slot k
    let before := mine.map fun p => (mv p.1, (((s.tile (mv p.1)).st.scenes[k]?).getD SceneSt.zero))
    if sl.st = .loaded || sl.st = .inForce || sl.st = .retiring then
      let s := s.reloadSlot id k sl.image
      before.foldl (fun s p => s.updTile p.1 fun x => { x with st := { x.st with scenes := x.st.scenes.set k p.2 } }) s
    else s) s
  let now := mine.map fun p => (mv p.1, s.tile (mv p.1))
  let keep (x : GreenRoom) : GreenRoom := if x.act.id = id then { x with tiles := now, windows := ws } else x
  let gs := s.sch.green.map keep
  let s := { s with sch := { s.sch with green := gs } }
  -- R380: the banks of the window that were lent come back with their contents.
  let s := g.banks.foldl (fun s p => s.returnBank p.1 p.2) s
  -- R318: the token count is given before the gates open.
  let s := if (s.act id).root.isNone then s.grantTokens id else s
  (s.updAct id fun a => a.updRegion fun r => { r with gates := g.act.region.gates }).settle id

/-! ## Revocations that no act waits for (R357, R364, R383) -/

/-- R357, R383: a context revoked by no act: its tiles, queues and floors go to its parent. [log 61 DEDUCED] -/
def State.revokeFor (s : State) (c : Nat) : State :=
  let p := (s.ctx c).parent
  if (s.ctx c).revoking || (s.ctx c).revoked then s
  else
    let s := s.beginRevoke (p.getD c) c
    { s with sch := { s.sch with revokes := s.sch.revokes ++ [(p, c)] } }

/-- A virtual device that has been revoked leaves nothing. -/
def State.dropDevice (s : State) (c : Nat) : State :=
  { s with ctxs := s.ctxs.filter (·.1 ≠ c), sch := { s.sch with vdevs := s.sch.vdevs.filter (·.ctx ≠ c) } }

/-- The revocations whose curtains are complete end. -/
def State.finishRevokes (s : State) : State :=
  s.sch.revokes.foldl (fun s p =>
    if s.subtreeQuiet p.2 then
      let s := s.endRevoke p.1 p.2
      let s := { s with sch := { s.sch with revokes := s.sch.revokes.filter (· ≠ p) } }
      if p.1.isNone then s.dropDevice p.2 else s
    else s) s

/-- R383: a restore that fails at physical address `pa`: the context is revoked, and its parent's claimer told; 0x51 raises the alarm. No
part of it is written. The PC of the record is that of the saved act. -/
def State.failRestore (s : State) (ctx id : Nat) (code : Byte) (pa : Nat) : State :=
  let s := s.reflect ctx code id (s.act id).regs.acpc (BitVec.ofNat 64 pa)
  let s := (s.revokeFor ctx).finishRevokes
  if code = 0x51 then s.raiseAlarm 2 3 else s

/-! ## Another act context (R119, R236) -/

/-- The act that `old` has become. -/
def renamed (old new id : Nat) : Nat := if id = old then new else id

/-- A range in which an act has a new number. -/
def Range.rename (r : Range) (f : Nat → Nat) : Range := { r with act := f r.act, also := r.also.map f }

/-- A task in which an act has a new number. -/
def Task.rename (t : Task) (f : Nat → Nat) : Task :=
  { t with
    act := f t.act, parts := t.parts.map f, checks := t.checks.map fun p => (f p.1, p.2),
    lines := t.lines.map fun l => { l with act := f l.act }, deferred := t.deferred.map fun r => { r with act := f r.act },
    ranges := t.ranges.map (·.rename f), accs := t.accs.map (·.rename f) }

/-- A waiter with its act's new number. -/
def Waiter.rename (w : Waiter) (f : Nat → Nat) : Waiter :=
  match w with
  | .act id => .act (f id)
  | .queue q => .queue q
  | .sched c => .sched c

/-- A queue in which an act has a new number. -/
def Queue.rename (q : Queue) (f : Nat → Nat) : Queue :=
  let e (x : QEntry) : QEntry := { x with act := f x.act }
  { q with
    entries := q.entries.map e, past := q.past.map fun p => (p.1, e p.2),
    owner := (f q.owner.1, q.owner.2) }

/-- A tile in which an act has a new number. -/
def Tile.rename (x : Tile) (f : Nat → Nat) : Tile :=
  { x with slots := x.slots.map fun y => { y with owner := y.owner.map f } }

/-- R119, R236, R401: act `old` takes the act context `new`, on the prompter of the block to which it is restored. -/
def State.renameAct (s : State) (old new : Nat) : State :=
  if old = new then s
  else
    let f := renamed old new
    let act (a : Act) : Act := { a with id := f a.id, parent := a.parent.map f, root := a.root.map f }
    let acts := (s.acts.filter fun p => p.1 != new).map fun p => (f p.1, act p.2)
    let ctxs := s.ctxs.map fun p => (p.1, { p.2 with tasks := p.2.tasks.map (·.rename f) })
    let tiles := s.fab.tiles.map fun p => (p.1, p.2.rename f)
    let channels := s.fab.channels.map fun c => { c with act := f c.act }
    let fed := s.fab.fed.map fun x => (x.1.map f, x.2)
    let e := s.eng
    let eng := { e with
      queues := e.queues.map (fun p => (p.1, p.2.rename f)),
      pages := e.pages.map (fun p => { p with act := f p.act, waiters := p.waiters.map (·.rename f) }),
      refused := e.refused.map (fun p => (p.1.rename f, p.2)),
      atoms := e.atoms.map fun r => { r with act := f r.act } }
    let green := s.sch.green.map fun g =>
      { g with act := act g.act, tiles := g.tiles.map (fun p => (p.1, p.2.rename f)), queues := g.queues.map fun p => (p.1, p.2.rename f) }
    let launches := s.sch.launches.map fun l => { l with acts := l.acts.map f }
    let loads := s.ctl.loads.map fun r => { r with act := f r.act }
    let move (m : Move) : Move := match m with
      | .act id => .act (f id)
      | .core d c => .core d c
      | .clock => .clock
      | .event i => .event i
      | .world w => .world w
    { s with
      me := f s.me, agenda := s.agenda.map move, acts := acts, ctxs := ctxs, eng := eng,
      fab := { s.fab with tiles := tiles, channels := channels, fed := fed, badShadows := s.fab.badShadows.map f },
      sch := { s.sch with green := green, launches := launches }, ctl := { s.ctl with loads := loads } }

/-- R372, R383: act `id` restored at (x0, y0), or its context failed. -/
def State.restore (s : State) (id x0 y0 : Nat) : State :=
  match s.greenOf id with
  | none => s
  | some g =>
    if (s.act id).life ≠ .switchedOut then s
    else match s.roomFault g (s.act id).ctx with
      | some (code, pa) => s.failRestore (s.act id).ctx id code pa
      | none => s.putBack id g x0 y0

/-- R286, R351, R424: a saved act whose time has come goes back to its own rectangle, where that is free. -/
def State.restoreHome (s : State) (id : Nat) : State :=
  let r := (s.act id).region
  if s.mayPlace id r.x0 r.y0 then s.restore id r.x0 r.y0 else s

/-- R351: the virtual device of an act has the quantum of its partition. -/
def State.hasQuantum (s : State) (id : Nat) : Bool := s.deviceRuns (s.rootOf (s.act id).ctx)

/-- R286: a region that was drained goes back once no request of it is outstanding. -/
def State.restoreDrained (s : State) : State :=
  s.sch.green.foldl (fun s g =>
    if g.reason = 3 && !(s.eng.pages.any fun p => p.act == g.act.id) && s.hasQuantum g.act.id && !s.ctl.sec.quiesced then
      s.restoreHome g.act.id else s) s

/-! ## The events -/

/-- R348, R357, R370: what follows a curtain that every sink has consumed. -/
def State.curtainEnds (s : State) (id : Nat) (c : MarkerRun) : State :=
  if c.reason = 2 && s.ctxLive (s.act id).ctx then
    -- R357: the act has left the subtree; its gates stay closed.
    ((s.traceAct 0x04 id 2 0).updAct id fun a => { a with curtain := none, region := { a.region with quiet := true } }).finishRevokes
  else if c.reason = 1 || c.reason = 2 then
    ((s.traceAct 0x04 id c.reason 0).endAct id none).finishRevokes
  else
    let ctx := (s.act id).ctx
    let (n, s) := s.save id c.reason c.gates
    let s := (s.count ctx 0x53 1).traceAct 0x04 id c.reason n
    -- R424: an alarm has been released meanwhile.
    if c.reason = 5 && !s.ctl.sec.quiesced && s.hasQuantum id then s.restoreHome id else s

/-- R370: CURTAIN_COMPLETE, for a curtain that a scheduler core imposed. -/
def execCurtainComplete (act : Nat) (s : State) : Host.Outcome State Fault Refusal :=
  .next (match (s.act act).curtain with
    | some c => if c.sinks = [] && c.reason ≠ 4 then s.curtainEnds act c else s
    | none => s)

/-- R285: some request of a region has been outstanding for its limit at this interval boundary. -/
def drainDue (s : State) (id : Nat) : Bool :=
  s.cycle % 2300 == 0 && s.eng.pages.any fun p => p.act == id && decide (p.posted + 2300 * (s.act id).pflim ≤ s.cycle)

/-- R285: a region whose drain is due starts it. -/
def State.drain (s : State) (id : Nat) : State :=
  let a := s.act id
  if a.present && drainDue s id && !a.leaving then (s.count a.ctx 0x51 1).switchOut id 3 else s

/-- R285: PAGE_FAULT_DRAIN: the curtain of a drain starts. -/
def execPageFaultDrain (act : Nat) (s : State) : Host.Outcome State Fault Refusal := .next (s.drain act)

/-- R285: the drains that are due in the cycle of a boundary start in it. -/
def State.drainAll (s : State) : State := (s.eng.pages.map (·.act)).foldl (fun s id => s.drain id) s

end Sys2Proof.Machine
end

