-- ==== Sys2Proof/Machine/Access.lean ====
section
/-! DEFINITION. How the engines reach memory: element addresses (R210), virtual memory (R207, R283), scratch (R269 to
R273), and the range accumulators and logs (R288 to R291). -/
namespace Sys2Proof.Machine

/-! ## Elements (R210) -/

/-- R277: a dimension; an unused one counts as 1. -/
def dimOf (d : W32) : Nat := if d = 0 then 1 else d.toNat

/-- R210: the address of the element with coordinates `i0`, `i1` and `i2`. -/
def TensorEntry.addrAt (t : TensorEntry) (i0 i1 i2 : Nat) : Dbl :=
  t.base + BitVec.ofNat 64 i0 * t.s0 + BitVec.ofNat 64 i1 * t.s1 + BitVec.ofNat 64 i2 * t.s2

/-- R210: the address of element `j`; `none` outside the extent. -/
def TensorEntry.addr (t : TensorEntry) (j : Nat) : Option Dbl :=
  let d0 := dimOf t.d0
  let d1 := dimOf t.d1
  let i2 := j / (d0 * d1)
  if i2 < dimOf t.d2 then some (t.addrAt (j % d0) (j / d0 % d1) i2) else none

/-- R210: the address of the scale of block `b`. -/
def TensorEntry.scaleAddr (t : TensorEntry) (b : Nat) : Dbl := t.scb + BitVec.ofNat 64 b

/-- The width of an element in bits, and in bytes. -/
def TensorEntry.width (t : TensorEntry) : Nat := dtWidth t.fmt.toNat
def TensorEntry.bytesOf (t : TensorEntry) : Nat := t.width / 8

/-! ## Where an access goes -/

/-- Who makes an access: a queue's command on die `die`, tile `tile`; `act` is the act of the region whose window and page
requests it uses (R269, R284), `src` the port of its ranges, and `chan` the output or input. -/
structure Agent where
  q : QueueId
  e : QEntry
  die : Nat
  tile : Nat
  act : Nat
  src : Nat
  chan : Nat
deriving DecidableEq, Repr

/-- The bytes of an element: in memory, or in a stream bank. -/
inductive Place where
  | mem (pa : Nat)
  | bank (key off : Nat)
deriving DecidableEq, Repr

/-- Where the bytes of an element lie, or that it is out of the window. -/
inductive Spot where
  | at (va : Dbl) (ps : List Place)
  | out (va : Dbl)
deriving DecidableEq, Repr

/-- What the search for the bytes of an element finds; a withheld access names its address. -/
inductive Found where
  | at (x : Spot)
  | wait (va : Option Dbl)
  | fault (code : Byte) (arg : Dbl)
  | poison (arg : Dbl)

/-- R207, R124: `n` bytes of virtual memory from `va`, each translated. -/
def locateBytes (g : Agent) (k : Access) (va0 : Dbl) : Nat → Dbl → List Place → State → Found × State
  | 0, _, ps, s => (.at (.at va0 ps), s)
  | n + 1, va, ps, s =>
    match accessAs s (.queue g.q) g.die g.tile g.e.ctx g.act va k with
    | (.ok pa, s) => locateBytes g k va0 n (va + 1) (ps ++ [.mem pa]) s
    | (.wait, s) => (.wait (some va), s)
    | (.fault c x, s) => (.fault c (s.accessArg va c x), s)

/-- R273: the argument for a byte of a bank. -/
def bankArg (key off : Nat) : Dbl := structArg 1 (key / 512) (256 + key % 512 / 8) (key % 8) off

/-- R389: an engine performs a command of an act that has ended. -/
def Agent.orphaned (g : Agent) : Bool := g.e.gone && decide (64 ≤ g.src)

/-- R267: a bank is in a window of the virtual device of a command. -/
def State.inWindow (s : State) (g : Agent) (key : Nat) : Bool :=
  match (s.bank key).use with
  | .window c => s.rootOf c == s.rootOf g.e.ctx
  | _ => false

/-- R269 to R274, R389: `n` bytes of scratch from an offset. A command whose act has ended reaches the window that its region had, as far
as it has not been taken back. [log 137 DEDUCED] -/
def locateBank (s : State) (g : Agent) (write : Bool) (va : Dbl) (n : Nat) : Found :=
  let w := if g.orphaned then g.e.win else (s.act g.act).window
  let o := va.toNat
  let ps := (List.range n).map fun i => ((w[(o + i) / 32768]?).getD 0, (o + i) % 32768)
  if 32768 * w.length < o + n || (g.orphaned && !(ps.all fun p => s.inWindow g p.1)) then .at (.out va)
  else
    -- R267: a bank that is lent is reached once it is back.
    let away (key : Nat) : Bool := s.sch.green.any fun x => x.act.id == g.act && x.keeps key
    if ps.any fun p => s.cycle < (s.bank p.1).wake || away p.1 then .wait none
    else match if write then none else ps.find? fun p => (s.bank p.1).poison.contains (p.2 / 8) with
    | some p => .poison (bankArg p.1 p.2)
    | none => .at (.at va (ps.map fun p => .bank p.1 p.2))

/-- R227: the ranges of other commands' copies make an access to bytes `lo` to `hi` wait. -/
def Agent.blocked (g : Agent) (s : State) (space write : Bool) (lo hi : Nat) : Bool :=
  s.eng.score.any fun r => r.q != g.q && r.ctx == g.e.ctx && r.space == space && (r.write || write)
    && decide (r.lo ≤ hi / 64) && decide (lo / 64 ≤ r.hi)

/-- R291: a deposit of the agent's port waits for room in the range log. -/
def State.depositWaits (s : State) (g : Agent) : Bool :=
  s.ctxs.any fun c => c.2.tasks.any fun t => t.accs.any fun r => r.due && r.src == g.src && r.act == g.act

/-- R283: the withheld access of a queue's active command. -/
def State.withheldAt (s : State) (q : QueueId) : Option Dbl := (s.queue q).active.bind (·.withheld)

/-- R287: in a drain what a stream has withheld stays withheld, and a fault of another code waits for the restore too. -/
def Agent.held (g : Agent) (s : State) (x : Found) : Found :=
  if g.src < 64 && s.draining g.act then match x with
    | .fault _ a => .wait (some a)
    | .poison a => .wait (some a)
    | x => x
  else x

/-- R227, R270, R291: where `n` bytes at an address of a tensor entry lie. -/
def locateFree (s : State) (g : Agent) (space write : Bool) (va : Dbl) (n : Nat) : Found × State :=
  if g.blocked s space write va.toNat (va.toNat + n - 1) || s.depositWaits g then (.wait none, s)
  else if space then (locateBank s g write va n, s)
  else locateBytes g (if write then .write else .read) va n va [] s

/-- R207, R283, R287: where `n` bytes at an address of a tensor entry lie, for a region that may drain. -/
def locate (s : State) (g : Agent) (space write : Bool) (va : Dbl) (n : Nat) : Found × State :=
  if decide (g.src < 64) && s.draining g.act && (s.withheldAt g.q).isSome then (.wait (s.withheldAt g.q), s)
  else
    let (x, s) := locateFree s g space write va n
    (g.held s x, s)

/-! ## Reading and writing -/

def State.readPlace (s : State) (p : Place) : Byte :=
  match p with
  | .mem pa => s.mem.read pa
  | .bank key off => (s.bank key).bytes.read off

/-- A byte stored. -/
def State.writePlace (s : State) (p : Place) (b : Byte) : State :=
  match p with
  | .mem pa => s.store pa 1 b.toNat
  | .bank key off =>
    let x := s.bank key
    { s with fab := { s.fab with banks := assocSet key { x with bytes := x.bytes.write off b } s.fab.banks } }

/-- R3: the number that the bytes at some places hold. -/
def State.readPlaces (s : State) : List Place → Nat
  | [] => 0
  | p :: ps => (s.readPlace p).toNat + 256 * s.readPlaces ps

/-- R3: a number stored at some places, the least significant byte first. -/
def State.writePlaces (s : State) : List Place → Nat → State
  | [], _ => s
  | p :: ps, v => (s.writePlace p (BitVec.ofNat 8 v)).writePlaces ps (v / 256)

/-- R427: granules of which every byte has been stored lose their poison. -/
def State.cleanPlaces (s : State) (ps : List Place) : State :=
  let left (k : Nat) (l : List Nat) : List Nat := l.filter fun g => !((List.range k).all fun i => ps.contains (.mem (k * g + i)))
  let bank (p : Nat × Bank) : Nat × Bank :=
    if p.2.poison = [] then p
    else (p.1, { p.2 with poison := p.2.poison.filter fun g => !((List.range 8).all fun i => ps.contains (.bank p.1 (8 * g + i))) })
  let banks := s.fab.banks.map bank
  { s with fab := { s.fab with hbmPoison := left 32 s.fab.hbmPoison, lpPoison := left 8 s.fab.lpPoison, banks := banks } }

/-! ## Ranges (R288 to R291) -/

/-- R289: a range widened to hold lines `lo` to `hi`, or opened with them. -/
def widenAcc (l : List Range) (r : Range) : List Range :=
  let same (x : Range) : Bool :=
    x.act == r.act && x.write == r.write && x.space == r.space && x.src == r.src && x.chan == r.chan
  if l.any same then
    l.map fun x => if same x then { x with lo := Nat.min x.lo r.lo, hi := Nat.max x.hi r.hi } else x
  else l ++ [r]

/-- R234, R288, R289: an access of a command recorded in the ranges of its task, until that task has committed. [log 66 DEDUCED] -/
def State.recordAccess (s : State) (g : Agent) (write space : Bool) (va : Dbl) (n : Nat) : State :=
  let r : Range :=
    { act := g.act, also := [], write := write, space := space, lo := va.toNat / 64, hi := (va.toNat + n - 1) / 64, src := g.src,
      chan := g.chan, due := false }
  s.updTask g.e.ctx g.e.stamp fun t => { t with accs := widenAcc t.accs r }

/-- R289: the accumulators of an agent's port. -/
def Agent.owns (g : Agent) (r : Range) : Bool := r.src == g.src && r.act == g.act

/-- R289: an agent's port deposits, at a stream close or at the end of the last command then placed. -/
def State.depositPort (s : State) (g : Agent) : State := s.deposit fun _ _ r => g.owns r

/-- R289: a command of another task begins on the port. [log 70 DESIGN CHOICE] -/
def State.depositOthers (s : State) (g : Agent) : State :=
  s.deposit fun c t r => g.owns r && (t.stamp != g.e.stamp || c != g.e.ctx)

/-! ## Elements located, read and written -/

/-- The elements of a command located: all of them, or a wait, or a state in which the command has stopped. -/
inductive Located where
  | all (l : List Spot) (s : State)
  | wait (va : Option Dbl) (s : State)
  | stop (s : State)

/-- R207, R273: what becomes of a search: its spot to `f`, or a stop. A poisoned bank takes the region of a stream to its
cut, and stops the queue of an engine. -/
def Found.take (x : Found × State) (g : Agent) (f : Spot → State → Located) : Located :=
  match x with
  | (.at p, s) => f p s
  | (.wait va, s) => .wait va s
  | (.fault c a, s) => .stop (s.stopQueue g.q g.e c a)
  | (.poison a, s) => .stop (if g.src < 64 then s.regionFault g.act 0x50 a else s.stopQueue g.q g.e 0x50 a)

/-- R207: bytes at given addresses located in order, `n` at each. [log 67 DEDUCED] -/
def locateAll (g : Agent) (space write : Bool) (n : Nat) : List Dbl → List Spot → State → Located
  | [], l, s => .all l s
  | va :: vas, l, s => Found.take (locate s g space write va n) g fun p s => locateAll g space write n vas (l ++ [p]) s

/-- R207: the addresses of elements, up to the first outside the extent, and that element. -/
def addrsOf (t : TensorEntry) : List Nat → List Dbl × Option Nat
  | [] => ([], none)
  | j :: js => match t.addr j with
    | none => ([], some j)
    | some a => let (l, x) := addrsOf t js
                (a :: l, x)

/-- R207, R210: the elements `js` of an entry located; one outside the extent stops the queue. -/
def locateElems (g : Agent) (t : TensorEntry) (write : Bool) (js : List Nat) (s : State) : Located :=
  let (vas, bad) := addrsOf t js
  match locateAll g t.space write t.bytesOf vas [] s, bad with
  | .all _ s, some j => if g.src < 64 && s.draining g.act then .wait (some (BitVec.ofNat 64 j)) s
      else .stop (s.stopQueue g.q g.e 0x12 (BitVec.ofNat 64 j))
  | x, _ => x

/-- R271: an access out of the window recorded in the region's SCRFLT and SCRST, while its act is there. -/
def State.outOfWindow (s : State) (g : Agent) (write : Bool) (va : Dbl) : State :=
  if g.orphaned then s else s.updAct g.act fun a => a.updRegs (·.outOfWindow write va)

/-- R271, R288: an element read: zero out of the window. -/
def State.readSpot (s : State) (g : Agent) (space : Bool) (x : Spot) : Nat × State :=
  match x with
  | .at va ps => (s.readPlaces ps, s.recordAccess g false space va ps.length)
  | .out va => (0, s.outOfWindow g false va)

/-- Elements read in order. -/
def readSpots (g : Agent) (space : Bool) : List Spot → State → List Nat × State
  | [], s => ([], s)
  | x :: xs, s =>
    let (v, s) := s.readSpot g space x
    let (vs, s) := readSpots g space xs s
    (v :: vs, s)

/-- R271, R288: an element stored: nothing out of the window. -/
def State.writeSpot (s : State) (g : Agent) (space : Bool) (x : Spot) (v : Nat) : State :=
  match x with
  | .at va ps => (s.writePlaces ps v).recordAccess g true space va ps.length
  | .out va => s.outOfWindow g true va

/-- The places of a spot. -/
def Spot.places : Spot → List Place
  | .at _ ps => ps
  | .out _ => []

/-- Elements stored in order. -/
def writeSpots (g : Agent) (space : Bool) : List (Spot × Nat) → State → State
  | [], s => s
  | (x, v) :: xs, s => writeSpots g space xs (s.writeSpot g space x v)

/-- Elements stored, with whole granules clean afterwards. -/
def storeSpots (g : Agent) (space : Bool) (xs : List (Spot × Nat)) (s : State) : State :=
  (writeSpots g space xs s).cleanPlaces (xs.flatMap fun x => x.1.places)

/-- R283: the address of an access withheld, or that none is. -/
def State.withhold (s : State) (q : QueueId) (va : Option Dbl) : State := s.updActive q fun a => { a with withheld := va }

end Sys2Proof.Machine
end

