-- ==== Sys2Proof/Machine/Streams.lean ====
section
/-! DEFINITION. The address generators: read and write streams, gather and scatter, the converting store, fills of
operand memory, SCALE and BCAST (R204, R211 to R223, R283, R289). -/
namespace Sys2Proof.Machine

/-! ## The generator of a queue -/

/-- A command that an address generator performs: its queue and entry, the act of its region, and its tile. -/
structure Stream where
  g : Agent
  a : Active
  ten : TensorEntry
  id : Nat
  t : TileId
deriving DecidableEq, Repr

/-- R201, R212, R240: the act and the tile of the address generator that serves a queue: the tile has role 3 in the scene in
force, its act stands on its region, and a context queue belongs to the act's virtual device. -/
def State.agenAct (s : State) (q : QueueId) : Option (Nat × TileId) :=
  match s.serverOf q with
  | some (.agen die port) =>
    let t : TileId := { die := die, tile := 256 + port }
    match s.ownerOf t with
    | none => none
    | some id =>
      let a := s.act id
      let mine := match q with
        | .port _ _ => true
        | .ctx c _ => s.rootOf a.ctx == c
      let role := match s.cfg t a.region.cur with
        | some c => c.role == 3
        | none => false
      if mine && role && !a.noCut then some (id, t) else none
  | _ => none

/-- The agent of a command on a tile; the output or input that its ranges name is its data port. -/
def agentOf (q : QueueId) (e : QEntry) (id : Nat) (t : TileId) : Agent :=
  { q := q, e := e, die := t.die, tile := t.tile, act := id, src := t.tile - 256, chan := cmdD e.cmd }

/-- The active command of a queue with one of the given opcodes, and its generator. -/
def State.stream (s : State) (q : QueueId) (ops : List Nat) : Option Stream :=
  let x := s.queue q
  if x.state = 2 then none
  else match x.entries, x.active, s.agenAct q with
  | e :: _, some a, some (id, t) =>
    if !ops.contains (cmdOpc e.cmd) then none
    else match s.tensor e.ctx (cmdTid e.cmd) with
    | some ten => some { g := agentOf q e id t, a := a, ten := ten, id := id, t := t }
    | none => none
  | _, _, _ => none

def Stream.cmd (x : Stream) : Quad := x.g.e.cmd
def Stream.cur (x : Stream) (s : State) : Nat := (s.act x.id).region.cur

/-! ## Beginning and completing -/

/-- R221: the outputs of a read command: its own and those that a binding names. -/
def boundOuts (b : Option (BitVec 4 × Option Nat)) (d : Nat) : List Nat :=
  (List.range 4).filter fun o => o == d || match b with
    | some (m, _) => m.getLsbD o
    | none => false

/-- R221: a binding after one read command. -/
def spendBinding (b : Option (BitVec 4 × Option Nat)) : Option (BitVec 4 × Option Nat) :=
  match b with
  | some (m, some n) => if n ≤ 1 then none else some (m, some (n - 1))
  | b => b

/-- R221: the commands that a binding covers. -/
def bindable (opc : Nat) : Bool := opc == 0x01 || opc == 0x02 || opc == 0x38

/-- R204, R289: the command at the head of a queue completes; after the last one then placed its port deposits. -/
def State.completeStream (s : State) (q : QueueId) : State :=
  let last := (s.queue q).entries.length ≤ 1
  match s.agenAct q, (s.queue q).entries with
  | some (id, t), e :: _ =>
    let s := s.completeHead q
    if last then s.depositPort (agentOf q e id t) else s
  | _, _ => s.completeHead q

/-- R289: a command of a queue begins on its port. -/
def State.beginPort (s : State) (q : QueueId) (e : QEntry) : State :=
  match s.agenAct q with
  | some (id, t) => s.depositOthers (agentOf q e id t)
  | none => s

/-- R204, R212, R221, R289: a stream command begins; with CNT = 0 it completes at once without effect. -/
def State.beginStream (s : State) (q : QueueId) (opc : Nat) : State :=
  s.beginHead q opc fun s e =>
    match s.agenAct q with
    | none => s
    | some _ =>
      let s := s.beginPort q e
      if cmdCnt e.cmd = 0 then s.completeStream q
      else
        let outs := if bindable opc then boundOuts (s.queue q).bcast (cmdD e.cmd) else []
        let s := s.updQueue q fun x =>
          { x with active := some { Active.fresh s.cycle with outs := outs },
                   bcast := if bindable opc then spendBinding x.bcast else x.bcast }
        s

/-- R214: RD.LIN. -/
def execRdLin (q : QueueId) (s : State) : Host.Outcome State Fault Refusal := .next (s.beginStream q 0x01)

/-- R215: RD.GATH. -/
def execRdGath (q : QueueId) (s : State) : Host.Outcome State Fault Refusal := .next (s.beginStream q 0x02)

/-- R216: WR.LIN. -/
def execWrLin (q : QueueId) (s : State) : Host.Outcome State Fault Refusal := .next (s.beginStream q 0x03)

/-- R217: WR.SCAT. -/
def execWrScat (q : QueueId) (s : State) : Host.Outcome State Fault Refusal := .next (s.beginStream q 0x04)

/-- R218: WR.LOG. -/
def execWrLog (q : QueueId) (s : State) : Host.Outcome State Fault Refusal := .next (s.beginStream q 0x06)

/-- R220: SCALE. -/
def execScale (q : QueueId) (s : State) : Host.Outcome State Fault Refusal := .next (s.beginStream q 0x38)

/-- R221: BCAST. -/
def execBcast (q : QueueId) (s : State) : Host.Outcome State Fault Refusal :=
  .next (s.beginHead q 0x18 fun s e =>
    let m : BitVec 4 := (cmdOps e.cmd).extractLsb' 0 4
    let n := cmdCnt e.cmd
    ((s.beginPort q e).updQueue q fun x => { x with bcast := if m = 0 then none else some (m, if n = 0 then none else some n) }).completeStream q)

/-- R93, R94: a command of a reserved OPC at the head of a queue, which no engine begins, stops it. -/
def State.reservedHead (s : State) (q : QueueId) : State :=
  match (s.queue q).entries with
  | e :: _ => if cmdServer (cmdOpc e.cmd) = none && (s.headCmd q (cmdOpc e.cmd)).isSome then s.stopQueue q e 0x01 e.addr else s
  | [] => s

/-- R204: COMMAND_COMPLETION: the command at the head of a queue has made every access. A reserved command is disposed of here. -/
def execCommandCompletion (q : QueueId) (s : State) : Host.Outcome State Fault Refusal :=
  .next (match (s.queue q).active with
    | some a => if a.finished && (s.queue q).state ≠ 2 then
        s.completeStream q else s
    | none => s.reservedHead q)

/-! ## Placing tokens (R62, R211, R212, R221) -/

/-- R97, R135, R212, R221: every output of a stream has what a token needs but for the connections: the gate is open, the outputs are
enabled, nothing waits to leave on them, none has placed one in this cycle, and every branch has a credit. -/
def State.maySend (s : State) (x : Stream) (scene : Nat) : Bool :=
  (s.act x.id).region.gates.getLsbD (x.t.tile - 256) && s.ticks x.t && x.a.outs.all fun o =>
    (match s.cfg x.t scene with
      | some c => c.enabled (4 + o)
      | none => false)
    && !((s.tile x.t).outq.any fun p => p.out == o) && decide (((s.tile x.t).portNext[4 + o]?).getD 0 ≤ s.cycle)
    && s.ready x.id x.t o scene 1

/-- R57: the outputs of a stream in the order in which their circuits have the turn on the port tile's one connection. -/
def State.outOrder (s : State) (x : Stream) (scene : Nat) : List Nat :=
  let rank (o : Nat) : Nat := match s.crossings x.id x.t o scene with
    | c :: _ => s.rank c
    | [] => 0
  (List.range 4).flatMap fun r => x.a.outs.filter fun o => rank o == r

/-- R57: the connections that a token of a stream would cross, from the output that comes first. -/
def State.streamCrossings (s : State) (x : Stream) (scene : Nat) : List Crossing :=
  match s.outOrder x scene with
  | o :: _ => s.crossings x.id x.t o scene
  | [] => []

/-- R57: the connections let a token of a stream by: none moves another, and the stream need not give way, as it has done in the cycle
before. [log 124 DESIGN CHOICE] -/
def State.mayCross (s : State) (x : Stream) (scene : Nat) : Bool :=
  let cs := s.streamCrossings x scene
  s.wiresFree cs && cs.all fun c => s.fab.asked.contains c || !(s.yields s.fab.asked c)

/-- R97, R135, R212, R221: a stream can place a token now. [log 62 DEDUCED, 63 DEDUCED] -/
def State.canSend (s : State) (x : Stream) (scene : Nat) : Bool := s.maySend x scene && s.mayCross x scene

/-- R57: a stream that only a connection holds back asks for it again in the next cycle. -/
def State.askStream (s : State) (x : Stream) (scene : Nat) : State :=
  if s.maySend x scene && !(s.mayCross x scene) then s.askAgain (s.streamCrossings x scene) else s

/-- A port of a tile has moved its token of this cycle. [log 65 DEDUCED] -/
def Tile.usePort (x : Tile) (p cycle : Nat) : Tile := { x with portNext := x.portNext.set p (cycle + 1), fired := true }

/-- R57, R61: a token of a stream placed on one output, its credits taken; where a connection on its way moves another token in the
cycle in which it would come by, it leaves in a later one. -/
def State.sendOut (s : State) (x : Stream) (scene : Nat) (tok : Token) (o : Nat) : State :=
  let cs := s.crossings x.id x.t o scene
  let s := s.takeAll x.id x.t o scene 1
  let s := if s.wiresFree cs then (s.placeTok x.id x.t o scene tok).cross cs
    else s.updTile x.t fun y => { y with outq := y.outq ++ [{ due := s.cycle + 1, out := o, scene := scene, tok := tok, paid := true }] }
  s.updTile x.t fun y => y.usePort (4 + o) s.cycle

/-- R221: a token placed on every output of a stream. -/
def State.send (s : State) (x : Stream) (scene : Nat) (tok : Token) : State :=
  ((s.outOrder x scene).foldl (fun s o => s.sendOut x scene tok o) s).moved x.id

/-- R62, R212, R317: `n` data tokens placed or consumed: power, the count and the mark period. -/
def State.chargeData (s : State) (x : Stream) (n : Nat) : State :=
  ((s.count (s.act x.id).ctx 0x12 n).updAct x.id Act.sourceFired).moved x.id

/-- R59, R62, R212: the region grants `n` power tokens for a firing of the stream, beside those reserved for the heads of
inputs `is`, or the firing is refused. -/
def State.needPower (s : State) (x : Stream) (n : Nat) (is : List Nat) (f : State → State) : State :=
  let n := n - s.zeroHeads x.t is
  if s.ticks x.t && decide (n ≤ (s.act (s.act x.id).regionRoot).tokens) then
    f s
  else s.refuse x.id x.t

/-- R62: the power tokens of a firing of the stream taken. -/
def State.payPower (s : State) (x : Stream) (n : Nat) (is : List Nat) : State :=
  (List.range (n - s.zeroHeads x.t is)).foldl (fun s _ => s.takePower x.id) s

/-- R207, R283: what a stream does with what it has located: `f` goes on, a wait is withheld. -/
def Located.run (l : Located) (q : QueueId) (f : List Spot → State → State) : State :=
  match l with
  | .all ps s => f ps (s.withhold q none)
  | .wait va s => s.withhold q va
  | .stop s => s

/-- R271, R272: ports that perform elements in one cycle do so in ascending order: one that comes too late waits for the next cycle. -/
def State.portTurn (s : State) (q : QueueId) (t : TileId) (f : State → State) : State :=
  if s.eng.portNow.1 = s.cycle && t.tile < s.eng.portNow.2 then s
  else
    let u := f s
    if (u.queue q).active = (s.queue q).active then u
    else { u with eng := { u.eng with portNow := (s.cycle, t.tile) } }

/-! ## Read streams (R211, R214, R215, R220, R222) -/

/-- R211: the elements a token of an entry's format holds. -/
def TensorEntry.capacity (t : TensorEntry) : Nat := if t.width = 0 then 16 else 512 / t.width

/-- R211: a data token of `w`-bit elements. -/
def packTok (scene w : Nat) (vs : List Nat) : Token :=
  let per := 32 / w
  let lanes := (vs.length + per - 1) / per
  dataTok scene (BitVec.ofNat 16 (2 ^ lanes - 1)) (tokOf w fun i => (vs[i]?).getD 0)

/-- R204: the last token of a read has been placed. -/
def Active.readDone (a : Active) (cnt : Nat) (cl : Bool) : Active :=
  { a with finished := decide (cnt ≤ a.pos) && (!cl || a.ending) }

/-- R222: the blocks that the elements of the next data token begin. -/
def scalesBefore (x : Stream) : Nat :=
  if cmdSC x.cmd then
    let n := Nat.min x.ten.capacity (cmdCnt x.cmd - x.a.pos)
    (n + 31) / 32
  else 0

/-- R220, R222: the scale token of a block placed; `f` changes the position. -/
def State.sendScale (s : State) (x : Stream) (block : Nat) (f : Active → Active) : State :=
  let sc := x.cur s
  if !(s.canSend x sc) then s.askStream x sc
  else (locateAll x.g x.ten.space false 1 [x.ten.scaleAddr block] [] s).run x.g.q fun ps s =>
    let (vs, s) := readSpots x.g x.ten.space ps s
    (s.send x sc (scaleTok sc (BitVec.ofNat 8 (vs.headD 0)))).updActive x.g.q f

/-- R213: the stream-close token after the last data token. -/
def State.sendClose (s : State) (x : Stream) : State :=
  let sc := x.cur s
  if !(s.canSend x sc) then s.askStream x sc
  else ((s.send x sc (closeTok sc)).updActive x.g.q fun a => { a with ending := true, finished := true }).depositPort x.g

/-- R211, R214: the next data token of RD.LIN. -/
def State.sendLinear (s : State) (x : Stream) : State :=
  let sc := x.cur s
  let cnt := cmdCnt x.cmd
  let n := Nat.min x.ten.capacity (cnt - x.a.pos)
  if !(s.canSend x sc) then s.askStream x sc
  else s.needPower x 1 [] fun s =>
    let js := (List.range n).map fun i => cmdStart x.cmd + x.a.pos + i
    (locateElems x.g x.ten false js s).run x.g.q fun ps s =>
      let (vs, s) := readSpots x.g x.ten.space ps s
      let s := ((s.payPower x 1 []).send x sc (packTok sc x.ten.width vs)).chargeData x 1
      s.updActive x.g.q fun a => { a with pos := a.pos + n, scaled := 0 }.readDone cnt (cmdCL x.cmd)

/-- R211, R222: the next token of RD.LIN. -/
def State.stepLinear (s : State) (x : Stream) : State :=
  if cmdCnt x.cmd ≤ x.a.pos then s.sendClose x
  else if x.a.scaled < scalesBefore x then
    s.sendScale x ((cmdStart x.cmd + x.a.pos) / 32 + x.a.scaled) fun a => { a with scaled := a.scaled + 1 }
  else s.sendLinear x

/-- R220: the next token of SCALE. -/
def State.stepScale (s : State) (x : Stream) : State :=
  s.sendScale x (cmdStart x.cmd + x.a.pos) fun a => { a with pos := a.pos + 1 }.readDone (cmdCnt x.cmd) false

/-- R60, R212: the data token at the head of an input, in a scene that the tile holds and in which it has role 3. -/
def State.inputTok (s : State) (x : Stream) (i : Nat) : Option Token :=
  match s.head x.t i with
  | some b =>
    let sc := b.tok.sc.toNat
    let role := match s.cfg x.t sc with
      | some c => c.role == 3 && c.enabled i
      | none => false
    if isData b && role && s.ticks x.t && s.holdsScene (s.act x.id) x.t sc
        && decide (((s.tile x.t).portNext[i]?).getD 0 ≤ s.cycle) then some b.tok else none
  | none => none

/-- R215, R217: the valid lanes of an index token that count: the first `n` of them. -/
def countedLanes (lv : BitVec 16) (n : Nat) : List Nat := ((List.range 16).filter fun i => lv.getLsbD i).take n

/-- The head of an input consumed by a stream. -/
def State.takeInput (s : State) (x : Stream) (i : Nat) : State :=
  (s.consumeAll x.id x.t [i]).updTile x.t fun y => y.usePort i s.cycle

/-- R215: the next data token of RD.GATH. [log 64 DEDUCED] -/
def State.stepGather (s : State) (x : Stream) : State :=
  let cnt := cmdCnt x.cmd
  if cnt ≤ x.a.idx then s.sendClose x
  else match s.inputTok x (cmdX x.cmd) with
  | none => s
  | some tok =>
    let sc := tok.sc.toNat
    if !(s.canSend x sc) then s.askStream x sc
    else s.needPower x 2 [cmdX x.cmd] fun s =>
      let ls := countedLanes tok.lv (cnt - x.a.idx)
      let js := ls.map fun i => (laneAt tok.lanes i).toNat
      (locateElems x.g x.ten false js s).run x.g.q fun ps s =>
        let (vs, s) := readSpots x.g x.ten.space ps s
        let m : BitVec 16 := BitVec.ofNat 16 ((ls.map (2 ^ ·)).foldl (· + ·) 0)
        let val (i : Nat) : W32 := match ls.idxOf? i with
          | some k => BitVec.ofNat 32 ((vs[k]?).getD 0)
          | none => 0
        let s := (((s.payPower x 2 [cmdX x.cmd]).takeInput x (cmdX x.cmd)).send x sc (dataTok sc m (lanesOf val))).chargeData x 2
        s.updActive x.g.q fun a =>
          let a := { a with idx := a.idx + ls.length, pos := a.pos + ls.length }
          { a with finished := decide (cnt ≤ a.idx) && !(cmdCL x.cmd) }

/-- R211: a read command places its next token. -/
def State.readToken (s : State) (x : Stream) : State :=
  if x.a.finished then s
  else match cmdOpc x.cmd with
  | 0x01 => s.stepLinear x
  | 0x02 => s.stepGather x
  | _ => s.stepScale x

/-! ## Write streams (R211, R216 to R218, R283) -/

/-- R207, R283: the first elements that a write command has taken stored, as far as none is withheld; `stored` gathers
what has been stored. -/
def storeHeld (q : QueueId) : Nat → List (Spot × Nat) → State → List (Spot × Nat) × State
  | 0, done, s => (done, s)
  | n + 1, done, s =>
    match s.stream q [0x03, 0x04, 0x06] with
    | none => (done, s)
    | some x =>
      match x.a.saved with
      | [] => (done, s)
      | [] :: rest => storeHeld q n done (s.updActive q fun a => { a with saved := rest })
      | (h :: hs) :: rest =>
        let at? := if h.scale then locateAll x.g x.ten.space true 1 [x.ten.scaleAddr h.j] [] s
          else locateElems x.g x.ten true [h.j] s
        match at? with
        | .stop s => (done, s)
        | .wait va s => (done, s.withhold q va)
        | .all ps s =>
          let xs := ps.map fun p => (p, h.v.toNat)
          let s := (writeSpots x.g x.ten.space xs s).updActive q fun a => { a with saved := hs :: rest, withheld := none }
          storeHeld q n (done ++ xs) s

/-- The elements that a write command holds, and the tokens they came in. -/
def Active.heldCount (a : Active) : Nat := (a.saved.map fun l => l.length + 1).foldl (· + ·) 0

/-- R204: a write command has performed its last store. -/
def Active.writeDone (a : Active) (c : Quad) : Active :=
  let n := if cmdOpc c = 0x04 then a.idx else a.pos
  { a with finished := a.saved.all (· == []) && (decide (cmdCnt c ≤ n) || a.ending) }

/-- Everything that a write command holds stored, as far as it can be. -/
def State.storeAll (s : State) (q : QueueId) : State :=
  match (s.queue q).active, (s.queue q).entries with
  | some a, e :: _ =>
    let (xs, s) := storeHeld q a.heldCount [] s
    (s.cleanPlaces (xs.flatMap fun x => x.1.places)).updActive q (·.writeDone e.cmd)
  | _, _ => s

/-- R283, R285, R326: a write command has room for another token: its buffer holds four data tokens not yet stored, and has no limit in a
drain. -/
def State.roomFor (s : State) (x : Stream) : Bool :=
  decide ((x.a.saved.filter fun l => l.any fun h => !h.scale).length < 4) || (s.act x.id).leaving

/-- R218: the code that WR.LOG stores for an FP32 value under a latched σ, and whether it saturated. -/
def storeCode (ten : TensorEntry) (sigma : Byte) (v : W32) : Nat × Bool :=
  let x := match f32Val v with
    | .fin neg m e => .fin neg m (e - sigmaVal sigma)
    | y => y
  lenc (ten.fmt.toNat == 10) x

/-- R211, R216: the elements of the valid lanes of a token, lane by lane. -/
def tokenElems (w : Nat) (tok : Token) : List Nat :=
  ((List.range 16).filter fun i => tok.lv.getLsbD i).flatMap fun i =>
    (List.range (32 / w)).map fun e => elem (laneAt tok.lanes i) w e

/-- R216: what WR.LIN takes from a token, and R218: what WR.LOG takes, with the encodings that saturate. -/
def linearElems (x : Stream) (tok : Token) : List HeldElem × Nat :=
  let log := cmdOpc x.cmd == 0x06
  let vs := (tokenElems (if log then 32 else x.ten.width) tok).take (cmdCnt x.cmd - x.a.pos)
  let cs := vs.map fun v => if log then storeCode x.ten x.a.sigma (BitVec.ofNat 32 v) else (v, false)
  ((List.range cs.length).map fun i =>
    { scale := false, j := cmdStart x.cmd + x.a.pos + i, v := BitVec.ofNat 32 ((cs[i]?).getD (0, false)).1 },
   cs.countP (·.2))

/-- R212, R216, R218: WR.LIN or WR.LOG takes one data token. -/
def State.takeLinear (s : State) (x : Stream) : State :=
  match s.inputTok x (cmdD x.cmd) with
  | none => s
  | some tok => s.needPower x 1 [cmdD x.cmd] fun s =>
    let (es, sats) := linearElems x tok
    let s := (((s.payPower x 1 [cmdD x.cmd]).takeInput x (cmdD x.cmd)).chargeData x 1).count x.g.e.ctx 0x41 sats
    s.updActive x.g.q fun a => { a with pos := a.pos + es.length, saved := a.saved ++ [es] }

/-- R217: the pairs that WR.SCAT stores, in ascending lane order. -/
def scatterElems (x : Stream) (data idx : Token) (ls : List Nat) : List HeldElem :=
  (ls.filter fun i => data.lv.getLsbD i).map fun i =>
    { scale := false, j := (laneAt idx.lanes i).toNat, v := BitVec.ofNat 32 (elem (laneAt data.lanes i) x.ten.width 0) }

/-- R217: WR.SCAT takes one data token and one index token of one scene. -/
def State.takeScatter (s : State) (x : Stream) : State :=
  match s.inputTok x (cmdD x.cmd), s.inputTok x (cmdX x.cmd) with
  | some d, some i =>
    if d.sc ≠ i.sc then s
    else s.needPower x 2 [cmdD x.cmd, cmdX x.cmd] fun s =>
      let ls := countedLanes i.lv (cmdCnt x.cmd - x.a.idx)
      let s := (((s.payPower x 2 [cmdD x.cmd, cmdX x.cmd]).takeInput x (cmdD x.cmd)).takeInput x (cmdX x.cmd)).chargeData x 2
      s.updActive x.g.q fun a =>
        { a with idx := a.idx + ls.length, pos := a.pos + ls.length, saved := a.saved ++ [scatterElems x d i ls] }
  | _, _ => s

/-- R212, R218: the scale token at the data input of a write command: WR.LOG latches its σ, and with SC = 1 stores it
too; any other write discards it. -/
def State.takeScale (s : State) (x : Stream) (sigma : Byte) : State :=
  let s := ((s.unreserve x.id x.t [cmdD x.cmd]).consumeAll x.id x.t [cmdD x.cmd]).moved x.id
  if cmdOpc x.cmd ≠ 0x06 then s
  else
    let h : HeldElem := { scale := true, j := (cmdStart x.cmd + x.a.pos) / 32, v := sigma.zeroExtend 32 }
    s.updActive x.g.q fun a =>
      let saved := if !(cmdSC x.cmd) then a.saved else match a.saved.getLast? with
        | some l => a.saved.dropLast ++ [l ++ [h]]
        | none => [[h]]
      { a with sigma := sigma, saved := saved }

/-- R212, R216 to R218, R283: a write command takes what stands at its inputs. -/
def State.takeWrite (s : State) (x : Stream) : State :=
  let need := if cmdOpc x.cmd = 0x04 then x.a.idx else x.a.pos
  if x.a.ending || decide (cmdCnt x.cmd ≤ need) || !(s.roomFor x) || !(s.ticks x.t) then s
  else match s.head x.t (cmdD x.cmd) with
  | none => s
  | some b =>
    if isScale b then s.takeScale x b.tok.arg
    else if isData b then (if cmdOpc x.cmd = 0x04 then s.takeScatter x else s.takeLinear x)
    else s

/-- R212: a write command stores what it holds, takes one token and stores it. -/
def State.writeToken (s : State) (q : QueueId) : State :=
  let s := s.storeAll q
  match s.stream q [0x03, 0x04, 0x06] with
  | none => s
  | some x => (s.takeWrite x).storeAll q

/-- R212: STREAM_CLOSE_AT_WRITE: a stream close at the data input of a write command ends it after the elements already
taken. -/
def execStreamCloseAtWrite (q : QueueId) (s : State) : Host.Outcome State Fault Refusal :=
  .next (match s.stream q [0x03, 0x04, 0x06] with
    | none => s
    | some x => match s.head x.t (cmdD x.cmd) with
      | none => s
      | some b =>
        if isClose b && !x.a.finished && s.ticks x.t && decide (((s.tile x.t).portNext[cmdD x.cmd]?).getD 0 ≤ s.cycle) then
          s.portTurn q x.t fun s =>
            let s := (((s.unreserve x.id x.t [cmdD x.cmd]).takeInput x (cmdD x.cmd)).moved x.id).updActive q fun a => { a with ending := true }
            (s.storeAll q).depositPort x.g
        else s)

/-! ## Fills of operand memory (R200, R219) -/

/-- R219: the slots that RD.OPM fills, and whether their layout is that of LN16. -/
def opmSlots (x : Stream) : List Nat × Bool :=
  let cv := cmdCV x.cmd
  let wide := cv == 2 || (cv == 0 && x.ten.fmt.toNat == 10)
  let k := bits (cmdOps x.cmd) 20 4
  (if wide then [k, k + 1] else [k], wide)

/-- R219: the M-tile that RD.OPM names. -/
def opmTarget (r : RegionSt) (c : Quad) : Option TileId :=
  let x := bits (cmdOps c) 28 4
  let y := bits (cmdOps c) 24 4
  let t := tileIndex (r.x0 + x) (r.y0 + y)
  if x < r.w && y < r.h && isMTile t then some { die := r.die, tile := t } else none

/-- R219: the slot, offset and bytes at which stream element `n` goes. -/
def opmPlace (slot : Nat) (wide : Bool) (n : Nat) : Nat × Nat × Nat :=
  if wide then (slot + n % 32 / 16, 32 * (n / 32) + 2 * (n % 16), 2) else (slot, n, 1)

/-- R219: the code that a fill stores, and whether LENC saturated. -/
def opmCode (x : Stream) (v : Nat) : Nat × Bool :=
  let cv := cmdCV x.cmd
  if cv = 0 then (v, false)
  else lenc (cv == 2) (if x.ten.fmt.toNat = 6 then f32Val (BitVec.ofNat 32 v) else bf16Val v)

/-- A slot of a tile changed. -/
def Tile.updSlot (x : Tile) (k : Nat) (f : OpSlot → OpSlot) : Tile :=
  { x with slots := (List.range 16).map fun j => if j = k then f (x.opSlot j) else x.opSlot j, written := x.written.insert k }

/-- R200, R219: a node of a scene held by the act that governs the tile names a slot and has a firing in flight that reads it. -/
def fillBlocked (s : State) (t : TileId) (ks : List Nat) : Bool :=
  match s.ownerOf t with
  | none => false
  | some id => ks.any fun k => ((s.tile t).st.node.reading.any fun r => r.1 == k && decide (s.cycle < r.2)) &&
      (List.range 4).any fun sc => s.holdsScene (s.act id) t sc && match s.cfg t sc with
        | some c => c.namesSlot k
        | none => false

/-- R219: the act and the tile of the generator that serves a queue, whatever the tile's role. -/
def State.fillHome (s : State) (q : QueueId) : Option (Nat × TileId) :=
  match s.serverOf q with
  | some (.agen die port) =>
    let t : TileId := { die := die, tile := 256 + port }
    (s.ownerOf t).map fun id => (id, t)
  | _ => none

/-- R219: a command that stands at the head of a queue, as its generator performs it. -/
def fillStream (s : State) (q : QueueId) (e : QEntry) (a : Active) (id : Nat) (t : TileId) : Stream :=
  { g := agentOf q e id t, a := a, ten := (s.tensor e.ctx (cmdTid e.cmd)).getD TensorEntry.zero, id := id, t := t }

/-- R219: the elements of a fill from its position, as far as none is withheld. -/
def fillElems (q : QueueId) (m : TileId) : Nat → State → State
  | 0, s => s
  | n + 1, s =>
    match s.stream q [0x05] with
    | none => s
    | some x =>
      if cmdCnt x.cmd ≤ x.a.pos then s
      else match locateElems x.g x.ten false [cmdStart x.cmd + x.a.pos] s with
      | .stop s => s
      | .wait va s => s.withhold q va
      | .all ps s =>
        let (vs, s) := readSpots x.g x.ten.space ps s
        let (code, sat) := opmCode x (vs.headD 0)
        let (ks, wide) := opmSlots x
        let (k, off, b) := opmPlace (ks.headD 0) wide x.a.pos
        let s := s.updTile m fun y => y.updSlot k fun z => { z with bytes := z.bytes.writeN off b code }
        let s := if sat then s.count x.g.e.ctx 0x41 1 else s
        fillElems q m n (s.updActive q fun a => { a with pos := a.pos + 1, withheld := none })

/-- R219: the scale fields that a fill sets. -/
def fillScales (s : State) (x : Stream) (m : TileId) : State :=
  let (ks, _) := opmSlots x
  let set (s : State) (vs : List Nat) : State := ks.foldl (fun s k =>
    s.updTile m fun y => y.updSlot k fun z => { z with sb := (List.range 4).map fun i => BitVec.ofNat 8 ((vs[i]?).getD 0) }) s
  let fin (s : State) : State := s.updActive x.g.q fun a => { a with finished := true, withheld := none }
  if !(cmdSC x.cmd) then fin (set s [])
  else
    let vas := (List.range 4).map fun i => x.ten.scaleAddr (4 * bits (cmdOps x.cmd) 12 8 + i)
    (locateAll x.g x.ten.space false 1 vas [] s).run x.g.q fun ps s =>
      let (vs, s) := readSpots x.g x.ten.space ps s
      fin (set s vs)

/-- R427: granules of a slot that a fill of `n` elements has written whole lose their poison. -/
def cleanSlots (x : Stream) (m : TileId) (s : State) : State :=
  let (ks, wide) := opmSlots x
  let places := (List.range (cmdCnt x.cmd)).map fun n => opmPlace (ks.headD 0) wide n
  ks.foldl (fun s k => s.updTile m fun y => y.updSlot k fun z =>
    if z.poison = [] then z
    else { z with poison := z.poison.filter fun g => !((List.range 8).all fun i =>
      places.any fun p => p.1 == k && decide (p.2.1 ≤ 8 * g + i) && decide (8 * g + i < p.2.1 + p.2.2)) }) s

/-- R219, R316: a fill goes on in a cycle of its clocks: the slots checked, the elements copied, then the scale fields set. -/
def State.stepFill (s : State) (q : QueueId) : State :=
  match s.stream q [0x05] with
  | none => s
  | some x =>
    match opmTarget (s.act x.id).region x.cmd with
    | none => s
    | some m =>
      let (ks, _) := opmSlots x
      let held (k : Nat) : Bool := match ((s.tile m).opSlot k).owner with
        | some o => (s.act o).ctx == x.g.e.ctx
        | none => false
      match ks.find? fun k => !held k with
      | some k => s.stopQueue q x.g.e 0x12 (BitVec.ofNat 64 k)
      | none =>
        if x.a.finished || !(s.ticks x.t && s.ticks m) then s
        else
          let s := fillElems q m (cmdCnt x.cmd - x.a.pos) s
          match s.stream q [0x05] with
          | none => s
          | some x => if cmdCnt x.cmd ≤ x.a.pos then cleanSlots x m (fillScales s x m) else s

/-- R200, R219: a fill begins: a name outside the region or of no M-tile is a command fault, and a node that still reads
the slot holds it back. [log 69 DEDUCED] -/
def State.beginFill (s : State) (q : QueueId) : State :=
  s.beginHead q 0x05 fun s e =>
    match s.agenAct q with
    | none => s
    | some (id, t) =>
      match opmTarget (s.act id).region e.cmd with
      | none => s.stopQueue q e 0x01 e.addr
      | some m =>
        let x := fillStream s q e (Active.fresh s.cycle) id t
        if cmdCnt e.cmd = 0 then s.completeStream q
        else if fillBlocked s m (opmSlots x).1 || !(s.ticks t && s.ticks m) then s
        else ((s.depositOthers x.g).activate q).stepFill q

/-- R219: a fill begins or goes on. -/
def State.fillToken (s : State) (q : QueueId) : State :=
  if (s.queue q).active.isSome then s.stepFill q else s.beginFill q

end Sys2Proof.Machine
end

