-- ==== Sys2Proof/Machine/Copies.lean ====
section
/-! DEFINITION. The copy engine (R224 to R227) and the queue commands SIG, SEQ, LINK and QFENCE (R232, R233). -/
namespace Sys2Proof.Machine

/-! ## Copy commands -/

/-- R288: the agent of a command on the server of its queue: an address generator names its port tile, any other engine none. -/
def engineAgent (s : State) (q : QueueId) (e : QEntry) : Agent :=
  let p := match s.serverOf q with
    | some sv => sv.place
    | none => (0, 0)
  let src := match s.serverOf q with
    | some (.agen _ port) => port
    | _ => 128
  { q := q, e := e, die := p.1, tile := p.2, act := e.act, src := src, chan := 0 }

/-- R288, R284: the agent of a queue command: on an address generator that serves its region, the stream of that port. -/
def commandAgent (s : State) (q : QueueId) (e : QEntry) : Agent :=
  match s.agenAct q with
  | some (id, t) => agentOf q e id t
  | none => engineAgent s q e

/-- R225: the entry that a copy writes. -/
def copyDest (s : State) (e : QEntry) : TensorEntry := (s.tensor e.ctx (bits (cmdOps e.cmd) 0 8)).getD TensorEntry.zero

/-- The entry that TID names. -/
def copySource (s : State) (e : QEntry) : TensorEntry := (s.tensor e.ctx (cmdTid e.cmd)).getD TensorEntry.zero

/-- R225: the coordinates of the elements of CP.2D in row order, from first row `r`. -/
def gridOf (c : Quad) (r : Nat) : List (Nat × Nat) :=
  (List.range (cmdCnt c)).flatMap fun i => (List.range (bits (cmdOps c) 48 16)).map fun x => (x, r + i)

/-- R225: the first element of CP.2D outside its entry's extent, the source of each checked before its destination. [log 120 DEDUCED] -/
def gridFault (t u : TensorEntry) (c : Quad) : Option Nat :=
  let out (e : TensorEntry) (col row : Nat) : Bool := decide (dimOf e.d0 ≤ col) || decide (dimOf e.d1 ≤ row)
  let src := gridOf c (bits (cmdOps c) 32 16)
  let dst := gridOf c (bits (cmdOps c) 16 16)
  (List.range src.length).findSome? fun k => match src[k]?, dst[k]? with
    | some a, some b =>
      if out t a.1 a.2 then some (a.1 + dimOf t.d0 * a.2)
      else if out u b.1 b.2 then some (b.1 + dimOf u.d0 * b.2) else none
    | _, _ => none

/-- R225, R226: the addresses that a copy command reads and writes, in element order, up to an element outside the
extent, and that element. -/
def copyAddrs (s : State) (e : QEntry) : (List Dbl × Option Nat) × (List Dbl × Option Nat) :=
  let c := e.cmd
  let t := copySource s e
  let u := copyDest s e
  let o := cmdOps c
  match cmdOpc c with
  | 0x10 => (addrsOf t ((List.range (cmdCnt c)).map (bits o 40 24 + ·)), addrsOf u ((List.range (cmdCnt c)).map (bits o 16 24 + ·)))
  | 0x11 =>
    (((gridOf c (bits o 32 16)).map fun p => t.addrAt p.1 p.2 0, none), ((gridOf c (bits o 16 16)).map fun p => u.addrAt p.1 p.2 0, none))
  | _ => (([], none), addrsOf t ((List.range (cmdCnt c)).map (cmdStart c + ·)))

/-- R227: the range of some elements' bytes, as 64-byte lines. -/
def spanOf (q : QueueId) (ctx : Nat) (write space : Bool) (n : Nat) (vas : List Dbl) : List ScoreRange :=
  match vas with
  | [] => []
  | v :: vs =>
    let lo := vs.foldl (fun m x => Nat.min m x.toNat) v.toNat
    let hi := vs.foldl (fun m x => Nat.max m x.toNat) v.toNat
    [{ q := q, ctx := ctx, write := write, space := space, lo := lo / 64, hi := (hi + n - 1) / 64 }]

/-- R227: the ranges of a copy command. -/
def copyRanges (s : State) (q : QueueId) (e : QEntry) : List ScoreRange :=
  let a := copyAddrs s e
  let t := copySource s e
  let u := if cmdOpc e.cmd = 0x12 then t else copyDest s e
  spanOf q e.ctx false t.space t.bytesOf a.1.1 ++ spanOf q e.ctx true u.space u.bytesOf a.2.1

/-- R227: two ranges of copies that may not both be in flight. -/
def ScoreRange.meets (a b : ScoreRange) : Bool :=
  a.ctx == b.ctx && a.space == b.space && (a.write || b.write) && decide (a.lo ≤ b.hi) && decide (b.lo ≤ a.hi)

/-- R227: the ranges that a copy engine holds. -/
def State.engineRanges (s : State) (die : Nat) : Nat :=
  s.eng.score.countP fun r => s.serverOf r.q == some (.copy die)

/-- R227: whether the scoreboard lets a copy begin. -/
def copyFree (s : State) (q : QueueId) (rs : List ScoreRange) : Bool :=
  (match s.serverOf q with
    | some (.copy die) => decide (s.engineRanges die + rs.length ≤ 32)
    | _ => false)
  && !(rs.any fun r => s.eng.score.any fun x => x.meets r)

/-- R227: the copy command at the head of a queue that could begin. -/
def copyHead (s : State) (q : QueueId) : Option QEntry :=
  if (s.queue q).active.isSome then none
  else match s.headCmd q 0x10, s.headCmd q 0x11, s.headCmd q 0x12 with
  | some e, _, _ => some e
  | none, some e, _ => some e
  | none, none, e => e

/-- R227: a copy of a lower-numbered queue that would begin in the same cycle and overlap goes first. -/
def copyYields (s : State) (q : QueueId) (rs : List ScoreRange) : Bool :=
  match q with
  | .port _ _ => false
  | .ctx c n => s.eng.queues.any fun p => match p.1 with
    | .port _ _ => false
    | .ctx c' n' => c' == c && decide (n' < n) && match copyHead s p.1 with
      | none => false
      | some e => s.headOk p.1 e && copyFree s p.1 (copyRanges s p.1 e)
          && (copyRanges s p.1 e).any fun x => rs.any fun r => x.meets r

/-- R225: the elements that a copy has still to read are read, as far as none is withheld. -/
def readSome (g : Agent) (space : Bool) (n : Nat) : List Dbl → State → State
  | [], s => s
  | va :: vas, s =>
    match locateAll g space false n [va] [] s with
    | .stop s => s
    | .wait w s => s.withhold g.q w
    | .all ps s =>
      let (vs, s) := readSpots g space ps s
      let h : HeldElem := { scale := false, j := 0, v := BitVec.ofNat 32 (vs.headD 0) }
      readSome g space n vas (s.updActive g.q fun a =>
        { a with pos := a.pos + 1, withheld := none, saved := [(a.saved.headD []) ++ [h]] })

/-- R225, R226: the elements that a copy has still to write are written, as far as none is withheld. -/
def writeSome (g : Agent) (space : Bool) (n : Nat) : List (Dbl × W32) → State → State
  | [], s => s
  | (va, v) :: xs, s =>
    match locateAll g space true n [va] [] s with
    | .stop s => s
    | .wait w s => s.withhold g.q w
    | .all ps s =>
      let s := writeSpots g space (ps.map fun p => (p, v.toNat)) s
      writeSome g space n xs (s.updActive g.q fun a => { a with idx := a.idx + 1, withheld := none })

/-- The active command of a queue that has not stopped. -/
def State.running (s : State) (q : QueueId) : Option (QEntry × Active) :=
  let x := s.queue q
  if x.state = 2 then none
  else match x.entries, x.active with
  | e :: _, some a => some (e, a)
  | _, _ => none

/-- R225, R226: a copy goes on: every source element read, then every destination element written. -/
def State.stepCopy (s : State) (q : QueueId) : State :=
  match s.running q with
  | none => s
  | some (e, a) =>
    let g := engineAgent s q e
    let ad := copyAddrs s e
    let t := copySource s e
    let u := if cmdOpc e.cmd = 0x12 then t else copyDest s e
    let s := readSome g t.space t.bytesOf (ad.1.1.drop a.pos) s
    match s.running q with
    | none => s
    | some (_, a) =>
      if a.pos < ad.1.1.length then s
      else match ad.1.2 with
      | some j => s.stopQueue q e 0x12 (BitVec.ofNat 64 j)
      | none =>
        let fill : W32 := (cmdOps e.cmd).extractLsb' 0 32
        let val (i : Nat) : W32 := if cmdOpc e.cmd = 0x12 then fill else (((a.saved.headD [])[i]?).map (·.v)).getD 0
        let xs := ((List.range ad.2.1.length).map fun i => ((ad.2.1[i]?).getD 0, val i)).drop a.idx
        let s := writeSome g u.space u.bytesOf xs s
        match s.running q with
        | none => s
        | some (_, a) =>
          if a.idx < ad.2.1.length then s
          else match ad.2.2 with
          | some j => s.stopQueue q e 0x12 (BitVec.ofNat 64 j)
          | none => (s.depositPort g).updActive q fun a => { a with finished := true }

/-- R204, R225 to R227: a copy command begins, or goes on. -/
def State.copyCommand (s : State) (q : QueueId) (opc : Nat) : State :=
  if (s.queue q).active.isSome then (if (s.headCmd q opc).isSome then s.stepCopy q else s)
  else s.beginHead q opc fun s e =>
    if cmdCnt e.cmd = 0 then s.completeHead q
    else match if opc = 0x11 then gridFault (copySource s e) (copyDest s e) e.cmd else none with
    | some j => s.stopQueue q e 0x12 (BitVec.ofNat 64 j)
    | none =>
      let rs := copyRanges s q e
      if !(copyFree s q rs) || copyYields s q rs then s
      else ({ s with eng := { s.eng with score := s.eng.score ++ rs } }.activate q).stepCopy q

/-- R225: CP. -/
def execCp (q : QueueId) (s : State) : Host.Outcome State Fault Refusal := .next (s.copyCommand q 0x10)

/-- R225: CP.2D. -/
def execCp2d (q : QueueId) (s : State) : Host.Outcome State Fault Refusal := .next (s.copyCommand q 0x11)

/-- R226: FILL. -/
def execFill (q : QueueId) (s : State) : Host.Outcome State Fault Refusal := .next (s.copyCommand q 0x12)

/-! ## Queue commands (R232, R233) -/

/-- R289: the range of a queue command deposited at once by an engine that is no port. -/
def State.depositEngine (s : State) (g : Agent) : State := if g.src < 64 then s else s.depositPort g

/-- R207, R232: a queue command that has begun stores the low `n` bytes of `v` at its address, and completes; a page that is not present
withholds the store (R283, R287). [log 71 DEDUCED] -/
def storeCommand (s : State) (q : QueueId) (e : QEntry) (n v : Nat) : State :=
  let va := cmdOps e.cmd
  if va.toNat % n ≠ 0 then s.stopQueue q e 0x03 va
  else
    let g := commandAgent s q e
    match locateAll g false true n [va] [] s with
    | .stop s => s
    | .wait w s => s.withhold q w
    | .all ps s => ((storeSpots g false (ps.map fun p => (p, v)) s).depositEngine g).completeStream q

/-- R94, R283: a queue command that `f` performs begins, or goes on where its store was withheld. -/
def State.queueCommand (s : State) (q : QueueId) (opc : Nat) (f : State → QEntry → State) : State :=
  if (s.queue q).active.isSome then
    match s.headCmd q opc with
    | some e => f s e
    | none => s
  else s.beginHead q opc fun s e => f ((s.beginPort q e).activate q) e

/-- R232: SIG. -/
def execSig (q : QueueId) (s : State) : Host.Outcome State Fault Refusal :=
  .next (s.queueCommand q 0x30 fun s e => storeCommand s q e 4 (cmdCnt e.cmd))

/-- R232: SEQ, which stores the sequence number that its own completion gives the queue. -/
def execSeqCommand (q : QueueId) (s : State) : Host.Outcome State Fault Refusal :=
  .next (s.queueCommand q 0x31 fun s e => storeCommand s q e 8 ((s.queue q).seq + 1))

/-- R232: LINK sets the server's head. -/
def execLink (q : QueueId) (s : State) : Host.Outcome State Fault Refusal :=
  .next (s.beginHead q 0x32 fun s e =>
    let va := cmdOps e.cmd
    if va.toNat % 16 ≠ 0 then s.stopQueue q e 0x03 va
    else ((s.beginPort q e).updQueue q fun x => { x with head := va }).completeStream q)

/-- R233: QFENCE completes once the commands that it joins have completed. -/
def execQfence (q : QueueId) (s : State) : Host.Outcome State Fault Refusal :=
  .next (s.beginHead q 0x33 fun s e => (s.beginPort q e).completeStream q)

end Sys2Proof.Machine
end

