-- ==== Sys2Proof/Machine/Collect.lean ====
section
/-! DEFINITION. The collective engine (R228 to R231, R384). -/
namespace Sys2Proof.Machine

/-- R228: the place of a member's part in the count of its group and rank. -/
def CollPart.key (p : CollPart) : Nat := (p.vdev * 256 + p.grp) * 64 + p.rank

/-- R228: the part that a command takes in its group. -/
def partOf (s : State) (q : QueueId) (e : QEntry) : CollPart :=
  let c := e.cmd
  let v := s.rootOf e.ctx
  let opc := cmdOpc c
  let p : CollPart :=
    { vdev := v, grp := colGrp c, no := 0, q := q, rank := colRank c, opc := opc, n := colN c,
      cnt := cmdCnt c, op := (cmdFlg c).toNat % 4, root := (cmdFlg c).getLsbD 2,
      start := if opc = 0x22 then 0 else cmdStart c,
      fmt := if opc = 0x22 then 0 else (copySource s e).fmt.toNat, ready := opc == 0x22, done := false, values := [] }
  { p with no := tally p.key s.eng.collSeq }

/-- Two parts of one collective. -/
def CollPart.mate (a b : CollPart) : Bool := a.vdev == b.vdev && a.grp == b.grp && a.no == b.no

/-- R228, R229: whether a part agrees with another of its collective. -/
def CollPart.agrees (a b : CollPart) : Bool :=
  a.opc == b.opc && a.n == b.n && a.cnt == b.cnt && a.op == b.op && a.root == b.root && a.rank != b.rank
    && (a.opc != 0x20 || a.fmt == b.fmt)

/-- The parts of a collective. -/
def State.mates (s : State) (p : CollPart) : List CollPart := s.eng.coll.filter fun x => x.mate p

/-- The part that a queue's active command takes. -/
def State.partAt (s : State) (q : QueueId) : Option CollPart := s.eng.coll.find? fun p => p.q == q && !p.done

/-- A queue's part changed. -/
def State.updPart' (s : State) (q : QueueId) (f : CollPart → CollPart) : State :=
  let coll := s.eng.coll.map fun p => if p.q = q && !p.done then f p else p
  { s with eng := { s.eng with coll := coll } }

/-- A collective of which every member has completed leaves its engines. -/
def State.clearColl (s : State) (p : CollPart) : State :=
  let ms := s.mates p
  if decide (p.n ≤ ms.length) && ms.all (·.done) then
    { s with eng := { s.eng with coll := s.eng.coll.filter fun x => !(x.mate p) } }
  else s

/-- R228: a member completes. -/
def State.collDone (s : State) (q : QueueId) (p : CollPart) : State :=
  let s := s.updActive q fun a => { a with finished := true, withheld := none }
  (s.updPart' q fun x => { x with done := true }).clearColl p

/-- R228: a command that has reached the head of its queue joins its group, and is counted there; one that disagrees with the others, or
joins a group that has aborted, aborts it at every member. [log 72 DEDUCED] -/
def State.joinColl (s : State) (q : QueueId) (e : QEntry) : State :=
  let p := partOf s q e
  let ms := s.mates p
  let s := { s with eng := { s.eng with coll := s.eng.coll ++ [p], collSeq := assocSet p.key (p.no + 1) s.eng.collSeq } }.activate q
  if ms.all (p.agrees ·) then s else (s.abortColl fun x => x.q == q && x.mate p).clearColl p

/-- The bytes of a part's contribution. -/
def CollPart.bytes (p : CollPart) : Nat := p.cnt * (dtWidth p.fmt / 8)

/-- R384: the bytes that the buffer of a die's collective engine holds, with those that a contribution which has begun will take. -/
def State.collBuffer (s : State) (die : Nat) : Nat :=
  (s.eng.coll.filter fun p => s.serverOf p.q == some (.coll die)).foldl (fun n p => n
    + if p.ready then p.values.length * (dtWidth p.fmt / 8)
      else match (s.queue p.q).active with
        | some a => if a.pos = 0 && a.withheld.isNone then 0 else p.bytes
        | none => 0) 0

/-- R384: whether the buffer of a queue's engine has room for a contribution, or holds one of which a part is there already. One larger
than the buffer enters it empty. [log 136 DESIGN CHOICE] -/
def State.collRoom (s : State) (q : QueueId) (p : CollPart) : Bool :=
  match s.serverOf q with
  | some (.coll die) =>
    (match (s.queue q).active with
      | some a => a.pos != 0 || a.withheld.isSome
      | none => false)
    || decide (s.collBuffer die + p.bytes ≤ 262144) || s.collBuffer die == 0
  | _ => false

/-- The indices of the elements that rank `r` contributes (R229, R230). -/
def contributed (p : CollPart) (r : Nat) : List Nat :=
  (List.range p.cnt).map fun i => (if p.opc = 0x21 then p.start + r * p.cnt else p.start) + i

/-- R229, R230: the member's own elements read into its engine's buffer. -/
def State.contribute (s : State) (q : QueueId) (e : QEntry) (p : CollPart) : State :=
  let g := engineAgent s q e
  let t := copySource s e
  let ad := addrsOf t (contributed p p.rank)
  match s.running q with
  | none => s
  | some (_, a) =>
    let s := readSome g t.space t.bytesOf (ad.1.drop a.pos) s
    match s.running q with
    | none => s
    | some (_, a) =>
      if a.pos < ad.1.length then s
      else match ad.2 with
      | some j => s.stopQueue q e 0x12 (BitVec.ofNat 64 j)
      | none =>
        let vs := (a.saved.headD []).map (·.v)
        (s.updPart' q fun x => { x with ready := true, values := vs }).updActive q fun a => { a with saved := [] }

/-- R228: every rank has joined. -/
def matched (s : State) (p : CollPart) : Bool := s.mates p |>.length |> (p.n == ·)

/-- The part of a rank. -/
def rankPart (ms : List CollPart) (r : Nat) : List W32 :=
  match ms.find? fun x => x.rank == r with
  | some x => x.values
  | none => []

/-- R229: the combination of every member's element `i`, by rank. -/
def combined (ms : List CollPart) (p : CollPart) (i : Nat) : Nat :=
  treeOf p.op p.fmt ((List.range p.n).map fun r => (((rankPart ms r)[i]?).getD 0).toNat)

/-- R229, R230: what a member writes, by element index. -/
def received (ms : List CollPart) (p : CollPart) : List (Nat × Nat) :=
  if p.opc = 0x20 then (List.range p.cnt).map fun i => (p.start + i, combined ms p i)
  else (List.range p.n).flatMap fun r =>
    if r = p.rank then []
    else (List.range p.cnt).map fun i => (p.start + r * p.cnt + i, (((rankPart ms r)[i]?).getD 0).toNat)

/-- R228 to R230: the result written to the member's tensor, once no element of it is withheld: a collective that aborts before that
leaves the tensor unchanged. -/
def State.receive (s : State) (q : QueueId) (e : QEntry) (p : CollPart) : State :=
  let g := engineAgent s q e
  let t := copySource s e
  let xs := received (s.mates p) p
  let ad := addrsOf t (xs.map (·.1))
  match s.running q with
  | none => s
  | some (_, a) =>
    let todo := ((List.range ad.1.length).map fun i =>
      ((ad.1[i]?).getD 0, BitVec.ofNat 32 (((xs[i]?).map (·.2)).getD 0))).drop a.idx
    match locateAll g t.space true t.bytesOf (todo.map (·.1)) [] s with
    | .wait va s => s.withhold q va
    | _ =>
    let s := writeSome g t.space t.bytesOf todo s
    match s.running q with
    | none => s
    | some (_, a) =>
      if a.idx < ad.1.length then s
      else match ad.2 with
      | some j => s.stopQueue q e 0x12 (BitVec.ofNat 64 j)
      | none => (s.depositPort g).collDone q p

/-- R228 to R231: a member goes on: it contributes, waits for the others, and takes the result. -/
def State.stepColl (s : State) (q : QueueId) : State :=
  match s.running q, s.partAt q with
  | some (e, a), some p =>
    if a.finished then s
    else
      let s := if p.ready || !(s.collRoom q p) then s else s.contribute q e p
      match s.partAt q with
      | none => s
      | some p =>
        if !p.ready || !(matched s p) then s
        else if p.opc = 0x22 then s.collDone q p
        else if p.opc = 0x20 && p.root && p.rank ≠ 0 then s.collDone q p
        else if !((s.mates p).all (·.ready)) then s
        else s.receive q e p
  | _, _ => s

/-- R204, R228: a collective command reaches the head of its queue, or goes on. -/
def State.collCommand (s : State) (q : QueueId) (opc : Nat) : State :=
  if (s.queue q).active.isSome then (if (s.headCmd q opc).isSome then s.stepColl q else s)
  else s.beginHead q opc fun s e =>
    if cmdCnt e.cmd = 0 && opc ≠ 0x22 then s.completeHead q else (s.joinColl q e).stepColl q

/-- R229: COL.RED. -/
def execColRed (q : QueueId) (s : State) : Host.Outcome State Fault Refusal := .next (s.collCommand q 0x20)

/-- R230: COL.GATH. -/
def execColGath (q : QueueId) (s : State) : Host.Outcome State Fault Refusal := .next (s.collCommand q 0x21)

/-- R231: COL.BAR. -/
def execColBar (q : QueueId) (s : State) : Host.Outcome State Fault Refusal := .next (s.collCommand q 0x22)

end Sys2Proof.Machine
end

