-- ==== Sys2Proof/Machine/Pipeline.lean ====
section
/-! DEFINITION. The firings of compute pipelines and reducers, the stream closes of GEN sources, and the requests of
zero-slot circuits (R59 to R62, R164 to R170, R183 to R190). -/
namespace Sys2Proof.Machine

/-! ## What a firing reads and needs -/

/-- The credits that an output must keep for the tokens that wait to leave on it. -/
def Tile.owed (x : Tile) (o : Nat) : Nat := x.outq.countP fun p => p.out == o && !p.paid

/-- R60: every branch of an output has a credit for `n` tokens of a firing, beside those that wait there. [log 76 DEDUCED] -/
def State.roomOn (s : State) (id : Nat) (t : TileId) (o scene n : Nat) : Bool :=
  n == 0 || s.ready id t o scene (n + (s.tile t).owed o)

/-- A data token of scene `sc` at the head of an input. -/
def State.dataHead (s : State) (t : TileId) (i sc : Nat) : Option Token :=
  match s.head t i with
  | some b => if isData b && b.tok.sc.toNat == sc then some b.tok else none
  | none => none

/-- R185: the turn of a MERGE at position `p`: the input whose turn it is, and the other. [log 74 DEDUCED] -/
def mergeTurn (w : Dbl) (p : Nat) : Nat × Nat := if p < immF w 0 16 then (stA w, stB w) else (stB w, stA w)

/-- R185: a marker or close of scene `sc` at the head of an input. -/
def State.gateOf (s : State) (t : TileId) (i sc : Nat) : Bool :=
  match s.gateHead t i with
  | some k => k.sc.toNat == sc
  | none => false

/-- R183, R185: the input that a MERGE consumes, and whether its turn advances. -/
def State.mergeTake (s : State) (t : TileId) (w : Dbl) (sc p : Nat) : Option (Nat × Bool) :=
  let (turn, other) := mergeTurn w p
  if (s.dataHead t turn sc).isSome then some (turn, true)
  else if s.gateOf t turn sc && (s.dataHead t other sc).isSome then some (other, false)
  else none

/-- A firing of a pipeline: its scene, what it evaluates, the inputs whose heads it consumes, and whether a MERGE turn
advances. -/
structure PipeFiring where
  scene : Nat
  c : TileCfg
  e : PipeIn
  eats : List Nat
  turns : Bool
deriving DecidableEq, Repr

/-- R164: what the pipeline of a tile keeps for a scene. -/
def State.sceneSt (s : State) (t : TileId) (sc : Nat) : SceneSt := ((s.tile t).st.scenes[sc]?).getD SceneSt.zero

/-- R166, R167: what a firing of a scene reads: the heads at inputs `is`, with lane set `v`. -/
def State.pipeIn (s : State) (t : TileId) (sc : Nat) (c : TileCfg) (is : List Nat) (v : BitVec 16) : PipeIn :=
  let x := s.sceneSt t sc
  let read (i : Nat) : Lanes := if is.contains i then (match s.dataHead t i sc with
    | some k => k.lanes
    | none => Lanes.zero) else Lanes.zero
  { ins := (List.range 4).map read, v := v, consts := c.consts, f := x.f, latches := x.latches }

/-- R167: the OR of the LV masks of the heads of inputs. -/
def State.lanesIn (s : State) (t : TileId) (sc : Nat) (is : List Nat) : BitVec 16 :=
  is.foldl (fun v i => match s.dataHead t i sc with
    | some k => v ||| k.lv
    | none => v) 0

/-- R60, R167, R183: the firing that a scene's words allow on the heads of a pipeline with inputs. -/
def State.firingOn (s : State) (t : TileId) (sc : Nat) (c : TileCfg) : Option PipeFiring :=
  let ins := c.inputsOf .pipe
  let x := s.sceneSt t sc
  match findOp c.stages 0x90 with
  | some w =>
    let rest := ins.filter fun i => i != stA w && i != stB w
    match s.mergeTake t w sc x.turn with
    | some (i, adv) =>
      if rest.all fun j => (s.dataHead t j sc).isSome then
        some { scene := sc, c := c, e := s.pipeIn t sc c (i :: rest) (s.lanesIn t sc [i]), eats := i :: rest, turns := adv }
      else none
    | none => none
  | none =>
    if ins.all fun i => (s.dataHead t i sc).isSome then
      let eats := match findOp c.stages 0x01 with
        | some w => if x.f % immF w 0 16 + 1 = immF w 0 16 then ins else ins.filter (· != stA w)
        | none => ins
      some { scene := sc, c := c, e := s.pipeIn t sc c ins (s.lanesIn t sc ins), eats := eats, turns := false }
    else none

/-- R60, R241, R186: the firing of a pipeline that names no input, under the scene in force. A source whose GEN has run out
fires no more, and none fires behind a curtain or in a region that is quiescent. [log 75 DEDUCED, 123 DEDUCED] -/
def State.sourceFiring (s : State) (id : Nat) (t : TileId) (c : TileCfg) : Option PipeFiring :=
  let sc := (s.act id).region.cur
  if (s.sceneSt t sc).ended || (s.act id).curtain.isSome || (s.act id).region.quiet then none
  else some { scene := sc, c := c, e := s.pipeIn t sc c [] 0xFFFF, eats := [], turns := false }

/-- R60: the firing that the pipeline of a tile can make in this cycle, as far as its inputs go. -/
def State.pipeFiring (s : State) (id : Nat) (t : TileId) : Option PipeFiring :=
  let ok (sc : Nat) : Option PipeFiring :=
    match s.cfg t sc with
    | none => none
    | some c =>
      if !c.has .pipe then none
      else if c.inputsOf .pipe = [] then (if sc = (s.act id).region.cur then s.sourceFiring id t c else none)
      else if s.holdsScene (s.act id) t sc then s.firingOn t sc c
      else none
  (List.range 4).findSome? ok

/-! ## What a firing places (R170, R183, R185, R189) -/

/-- R185: an output that a SPLIT names and that is not the one that receives this firing's token. -/
def skipped (ws : List Dbl) (f k : Nat) : Bool :=
  ws.any fun w => w != 0 && stOpc w == 0x91 && (wordOuts w).contains k && splitOut w f != k

/-- R185, R189: the credits that a firing needs on an output. -/
def PipeFiring.needOn (x : PipeFiring) (l : List Lanes) (k : Nat) : Nat :=
  let n := (scliTokens x.e x.c.stages l k).length
  if skipped x.c.stages x.e.f k && n == 0 then 0 else 1 + n

/-- R185: a credit that a firing took and that no token used: usable again from cycle `due`. -/
def State.giveBack (s : State) (id : Nat) (t : TileId) (o scene due : Nat) : State :=
  (s.branches id t o scene).foldl (fun s b =>
    if s.linkSlots id b.1 = 0 then { s with fab := { s.fab with requests := s.fab.requests ++ [(b.1, due)] } }
    else s.returnCredit b.1 due) s

/-- R168, R170, R183, R189: what a firing puts on its named output `k`, its credits taken. -/
def State.firePlace (s : State) (id : Nat) (t : TileId) (x : PipeFiring) (l : List Lanes) (r : PipeOut) (k : Nat) : State :=
  let n := x.needOn l k
  let s := s.takeAll id t k x.scene n
  let scales := scliTokens x.e x.c.stages l k
  let at_ := s.cycle + 6
  let outs : List PendingOut := (List.range scales.length).map fun j =>
    { due := at_ + j, out := k, scene := x.scene, tok := scaleTok x.scene ((scales[j]?).getD 0), paid := true }
  let lv := (r.keep[k]?).getD 0
  let goes := placesOn x.e x.c.stages l k && lv != 0
  let data : List PendingOut := if goes then
      [{ due := at_ + scales.length, out := k, scene := x.scene,
         tok := dataTok x.scene lv ((r.o[k]?).getD Lanes.zero), paid := true }] else []
  let s := s.updTile t fun y => { y with outq := y.outq ++ outs ++ data }
  if goes || n = 0 then s else s.giveBack id t k x.scene at_

/-- R185, R186, R187, R188: what the pipeline keeps for the scene of a firing, after it. -/
def PipeFiring.after (x : PipeFiring) (st : SceneSt) (r : PipeOut) : SceneSt :=
  let turn := match findOp x.c.stages 0x90 with
    | some w => if x.turns then (st.turn + 1) % (immF w 0 16 + immF w 16 16) else st.turn
    | none => st.turn
  let last := match findOp x.c.stages 0x94 with
    | some w => immF w 0 16 != 0 && immF w 0 16 == st.f + 1
    | none => false
  let latches := (List.range 4).map fun i =>
    let la := (st.latches[i]?).getD Latch.zero
    if x.eats.contains i then la.data else la
  { st with l := r.l, f := st.f + 1, turn := turn, ended := st.ended || last,
            closes := if last then x.c.outputsOf .pipe else st.closes, latches := latches }

/-- R61, R169, R170: a pipeline fires. -/
def State.fire (s : State) (id : Nat) (t : TileId) (x : PipeFiring) : State :=
  let st := s.sceneSt t x.scene
  let outs := x.c.outputsOf .pipe
  let r := pipeFire x.e x.c.stages st.l
  let gap := outs.foldl (fun m k => Nat.max m (scliTokens x.e x.c.stages st.l k).length) 0
  let src := x.c.inputsOf .pipe == []
  let s := s.spend id t x.eats
  let s := outs.foldl (fun s k => s.firePlace id t x st.l r k) s
  let s := s.consumeAll id t x.eats
  let s := s.updTile t fun y =>
    { y with st := { y.st with scenes := y.st.scenes.set x.scene (x.after st r) }, pipeNext := s.cycle + 1 + gap,
             lastPipe := some s.cycle, fired := true }
  let s := (s.count (s.act id).ctx 0x10 1).count (s.act id).ctx 0x40 r.sats
  let s := if src then s.updAct id Act.sourceFired else s
  (s.settle id).moved id

/-- R169: the pipeline's firing slot is free, and the registers of the scene allow a firing in this cycle. -/
def State.pipeFree (s : State) (t : TileId) (x : PipeFiring) : Bool :=
  slotFree s t .pipe && s.ticks t && match (s.tile t).lastPipe with
    | some n => decide (n + firingInterval x.c.stages ≤ s.cycle)
    | none => true

/-- R60, R185, R189: every destination of a firing has the credits it needs. -/
def State.pipeRoom (s : State) (id : Nat) (t : TileId) (x : PipeFiring) : Bool :=
  let l := (s.sceneSt t x.scene).l
  (x.c.outputsOf .pipe).all fun k => s.roomOn id t k x.scene (x.needOn l k)

/-- The act that governs a tile, where it stands and its region has not stopped. -/
def State.liveOwner (s : State) (t : TileId) : Option Nat :=
  match s.ownerOf t with
  | some id => if (s.act id).noCut then none else some id
  | none => none

/-- R60: the pipeline of a tile fires if it can. -/
def State.tryFire (s : State) (t : TileId) : State :=
  match s.liveOwner t with
  | none => s
  | some id => match s.pipeFiring id t with
    | none => s
    | some x =>
      if !(s.pipeFree t x && s.pipeRoom id t x) || s.pledged id t x.scene (x.c.inputsOf .pipe) then s
      else if s.powered id t x.eats then s.fire id t x
      else s.refuse id t

/-- R186: the stream closes that a GEN source owes join its outgoing tokens, each of which leaves with its destination's
next credit. -/
def State.pushCloses (s : State) (t : TileId) (sc : Nat) : State :=
  let x := s.sceneSt t sc
  let s := x.closes.foldl (fun s o =>
    let p : PendingOut := { due := passDue s t .pipe o, out := o, scene := sc, tok := closeTok sc, paid := false }
    s.updTile t fun y => { y with outq := y.outq ++ [p] }) s
  s.updTile t fun y => { y with st := { y.st with scenes := y.st.scenes.set sc { x with closes := [] } } }

/-- R186: GEN_STREAM_CLOSE. -/
def execGenStreamClose (t : TileId) (s : State) : Host.Outcome State Fault Refusal :=
  .next (match s.liveOwner t with
    | none => s
    | some id =>
      if (List.range 4).all fun sc => (s.sceneSt t sc).closes == [] then s
      else ((List.range 4).foldl (fun s sc => if (s.sceneSt t sc).closes = [] then s else s.pushCloses t sc) s).moved id)

end Sys2Proof.Machine
end

