-- ==== Sys2Proof/Machine/Matrix.lean ====
section
/-! DEFINITION. The firings of matrix nodes (R46 to R49, R191, R193 to R200, R276), and the declared rate and the matrix
cap of a region (R321, R322). -/
namespace Sys2Proof.Machine

/-! ## The operands of a firing (R191, R195, R196, R276) -/

/-- R196: an A element to be applied: its code, its scale, its row of B and its scale field. -/
structure NodeTerm where
  a : Nat
  sigma : Int
  row : Nat
  sb : Nat
deriving DecidableEq, Repr

/-- R191: nb of a compressed token. -/
def sparseBlocks (wide : Bool) (n : Nat) : Nat := if wide then Nat.min 2 (32 / n) else Nat.min 4 (64 / n)

/-- R196: the A elements that a firing applies, in order. -/
def nodeTerms (w : Dbl) (a : Lanes) (mask : Option Lanes) (l : Latch) : List NodeTerm :=
  let wide := nodeAF w
  let n := if wide then 16 else 8
  let code (pos : Nat) : Nat := tokElem a n pos
  match mask with
  | none => (List.range (512 / n)).map fun k => { a := code k, sigma := l.at wide k, row := k, sb := k / 32 }
  | some m =>
    (List.range (sparseBlocks wide (nodeSPN w))).flatMap fun b =>
      let kept := keptPositions (laneAt m b) (nodeSPN w)
      (List.range kept.length).map fun t =>
        let pos := nodeSPN w * b + t
        { a := code pos, sigma := l.at wide pos, row := 32 * b + (kept[t]?).getD 0, sb := b }

/-- R196: the rows of B that a firing may read. -/
def nodeRows (w : Dbl) : Nat :=
  if nodeMode w = 1 then 32 * sparseBlocks (nodeAF w) (nodeSPN w) else if nodeAF w then 32 else 64

/-- R195: the operand slots of a node word. -/
def nodeSlots (w : Dbl) : List Nat := if nodeAF w then [nodeBS w, nodeBS w + 1] else [nodeBS w]

/-- R276: a slot as a node of act `id` reads it: zero where no act of the context owns it. -/
def State.readSlot (s : State) (id : Nat) (t : TileId) (k : Nat) : OpSlot :=
  let x := (s.tile t).opSlot k
  match x.owner with
  | some o => if (s.act o).ctx = (s.act id).ctx then x else OpSlot.empty
  | none => OpSlot.empty

/-- R195: element B(k, c) of the slots of a word. -/
def nodeB (wide : Bool) (lo hi : OpSlot) (k c : Nat) : Nat :=
  if wide then (if c < 16 then lo else hi).bytes.readN (32 * k + 2 * (c % 16)) 2
  else (lo.bytes.read (32 * k + c)).toNat

/-- R427: the lowest poisoned granule that a firing reads, with its slot. -/
def nodePoison (s : State) (id : Nat) (t : TileId) (w : Dbl) : Option (Nat × Nat) :=
  (nodeSlots w).findSome? fun k =>
    (argMin (fun g => g) ((s.readSlot id t k).poison.filter fun g => decide (8 * g < 32 * nodeRows w))).map fun g => (k, 8 * g)

/-- R46, R196: the products of a firing applied to every column. -/
def NodeSt.apply (x : NodeSt) (w : Dbl) (terms : List NodeTerm) (lo hi : OpSlot) : NodeSt :=
  let wide := nodeAF w
  let col (c : Nat) : ColSt :=
    terms.foldl (fun st m =>
      applyProduct wide m.a m.sigma (nodeB wide lo hi m.row c) (sigmaVal ((lo.sb[m.sb]?).getD 0)) st)
      { acc := (x.acc[c]?).getD 0, nan := x.nan.getLsbD c, asat := false, aund := false }
  let cols := (List.range 32).map col
  let nan : BitVec 32 := BitVec.ofNat 32 (((List.range 32).map fun c => if (cols[c]?).any (·.nan) then 2 ^ c else 0).foldl (· + ·) 0)
  { x with acc := cols.map (·.acc), nan := nan, asat := x.asat || cols.any (·.asat), aund := x.aund || cols.any (·.aund) }

/-! ## MM and MM.SP (R196, R199, R200) -/

/-- R200, R219: a fill of a slot of a tile is in progress, whatever role its port tile has in the scene in force. -/
def State.filling (s : State) (t : TileId) (ks : List Nat) : Bool :=
  s.eng.queues.any fun p => match p.2.entries, p.2.active, s.fillHome p.1 with
    | e :: _, some a, some (id, u) =>
      let x := fillStream s p.1 e a id u
      cmdOpc e.cmd == 0x05 && p.2.state != 2 && !a.finished && opmTarget (s.act id).region e.cmd == some t
        && (opmSlots x).1.any ks.contains
    | _, _, _ => false

/-- The state of a tile's node changed. -/
def Tile.updNode (x : Tile) (f : NodeSt → NodeSt) : Tile := { x with st := { x.st with node := f x.st.node }, fired := true }

/-- R61, R196, R199: a node fires on its A token and, for MM.SP, its metadata. [log 77 DEDUCED] -/
def State.fireNode (s : State) (id : Nat) (t : TileId) (sc : Nat) (c : TileCfg) : State :=
  let w := c.nodeWord
  let is := c.inputsOf .node
  let lanes (i : Nat) : Lanes := match s.dataHead t i sc with
    | some k => k.lanes
    | none => Lanes.zero
  let wide := nodeAF w
  let terms := nodeTerms w (lanes (nodeAP w)) (if nodeMode w = 1 then some (lanes (nodeMP w)) else none) (s.tile t).st.node.latch
  let lo := s.readSlot id t (nodeBS w)
  let hi := s.readSlot id t (nodeBS w + 1)
  let cls := c.classOf .node
  let e := energyAt cls (s.point t)
  let s := (s.spend id t is).consumeAll id t is
  let s := s.updTile t fun x =>
    { x.updNode (fun n => { n.apply w terms lo hi with
        latch := n.latch.data, busy := s.cycle + (if wide then 6 else 5),
        reading := n.reading.filter (fun r => decide (s.cycle < r.2)) ++ (nodeSlots w).map fun k => (k, s.cycle + (if wide then 6 else 5)) }) with
      nodeNext := s.cycle + 1, lastNode := some s.cycle }
  let s := s.updAct (s.act id).regionRoot fun a => { a with mxFired := a.mxFired + 1, mxEnergy := a.mxEnergy + e }
  ((s.count (s.act id).ctx 0x11 1).settle id).moved id

/-- R199: the firing interval of a node lets an MM or MM.SP word fire: one of LN16 follows the firing before it by two cycles. -/
def State.nodeFree (s : State) (t : TileId) (w : Dbl) : Bool :=
  slotFree s t .node && s.ticks t && (!nodeAF w || match (s.tile t).lastNode with
    | some n => decide (n + 2 ≤ s.cycle)
    | none => true)

/-- R60, R322, R427: a node whose scene's word has mode `mode` fires if it can. -/
def State.tryNode (s : State) (t : TileId) (mode : Nat) : State :=
  match s.liveOwner t with
  | none => s
  | some id =>
    match s.firingScene (s.act id) t .node with
    | none => s
    | some sc => match s.cfg t sc with
      | none => s
      | some c =>
        let w := c.nodeWord
        if nodeMode w ≠ mode || !(s.nodeFree t w) || (s.tile t).st.node.oneShot.isSome
            || s.filling t (nodeSlots w) || s.pledged id t sc (c.inputsOf .node) then s
        else if !(s.powered id t (c.inputsOf .node) && s.underCap id) then s.refuse id t
        else match nodePoison s id t w with
        | some (k, off) => s.regionFault id 0x50 (structArg 2 t.die t.tile k off)
        | none => s.fireNode id t sc c

/-! ## The one-shot modes (R197 to R199) -/

/-- R197: the scene whose one-shot word of a mode fires now, and whether a trigger token sets it off. -/
def State.oneShotScene (s : State) (id : Nat) (t : TileId) (mode : Nat) : Option (Nat × TileCfg × Bool) :=
  let hit (sc : Nat) (trigger : Bool) : Option (Nat × TileCfg × Bool) := match s.cfg t sc with
    | some c => if c.node && nodeMode c.nodeWord == mode then some (sc, c, trigger) else none
    | none => none
  match (s.tile t).st.node.oneShot with
  | some sc => hit sc false
  | none => match s.firingScene (s.act id) t .node with
    | some sc => hit sc true
    | none => none

/-- R197, R199: a one-shot firing: `credits` on its output, and what it does. A trigger token zeroes the scale latches here, and a curtain
has zeroed them when it was consumed. -/
def State.tryOneShot (s : State) (t : TileId) (mode credits : Nat)
    (f : State → Nat → Nat → TileCfg → State) : State :=
  match s.liveOwner t with
  | none => s
  | some id => match s.oneShotScene id t mode with
    | none => s
    | some (sc, c, trigger) =>
      let is := if trigger then [nodeAP c.nodeWord] else []
      if !(slotFree s t .node) || !(s.ticks t) || decide (s.cycle < (s.tile t).st.node.busy)
          || !(credits == 0 || s.roomOn id t (nodeOP c.nodeWord) sc credits) || s.pledged id t sc is then s
      else if !(s.powered id t is) then s.refuse id t
      else
        let s := (s.spend id t is).consumeAll id t is
        let s := f s id sc c
        let s := s.updTile t fun x =>
          { x.updNode (fun n => { n with latch := if trigger then Latch.zero else n.latch, oneShot := none }) with
            nodeNext := s.cycle + 1, lastNode := some s.cycle }
        ((s.count (s.act id).ctx 0x11 1).settle id).moved id

/-- R46, R198: the firing of ACC.CLR. -/
def State.tryAccClr (s : State) (t : TileId) : State :=
  s.tryOneShot t 2 0 fun s _ _ _ =>
    s.updTile t fun x => x.updNode fun n => { n with acc := List.replicate 32 0, nan := 0 }

/-- R199: the tokens of a one-shot firing placed from cycle m + 4, their credits taken. -/
def State.nodePlace (s : State) (id : Nat) (t : TileId) (o sc : Nat) (ks : List Token) : State :=
  let s := s.takeAll id t o sc ks.length
  let outs : List PendingOut := (List.range ks.length).map fun j =>
    { due := s.cycle + 4 + j, out := o, scene := sc, tok := (ks[j]?).getD (closeTok sc), paid := true }
  s.updTile t fun x => { x with outq := x.outq ++ outs }

/-- R198: token `k` of a drain. -/
def NodeSt.drainTok (n : NodeSt) (w : Dbl) (sc k : Nat) : Token :=
  dataTok sc 0xFFFF (lanesOf fun i =>
    BitVec.ofNat 32 (drainCol (nodeDF w) ((n.acc[16 * k + i]?).getD 0) (n.nan.getLsbD (16 * k + i))).1)

/-- R49, R198: the firing of DRAIN. -/
def State.tryDrain (s : State) (t : TileId) : State :=
  s.tryOneShot t 3 2 fun s id sc c =>
    let n := (s.tile t).st.node
    let sat := (List.range 32).any fun i => (drainCol (nodeDF c.nodeWord) ((n.acc[i]?).getD 0) (n.nan.getLsbD i)).2
    (s.nodePlace id t (nodeOP c.nodeWord) sc [n.drainTok c.nodeWord sc 0, n.drainTok c.nodeWord sc 1]).updTile t
      fun x => x.updNode fun n => { n with lsat := n.lsat || sat }

/-- R198: the token of a SAT read. -/
def NodeSt.satTok (n : NodeSt) (sc : Nat) : Token :=
  dataTok sc 0x0003 (lanesOf fun i =>
    if i = 0 then BitVec.ofNat 32 (n.lsat.toNat + 2 * n.asat.toNat + 4 * n.aund.toNat) else if i = 1 then n.nan else 0)

/-- R48, R198: the firing of SAT. -/
def State.trySat (s : State) (t : TileId) : State :=
  s.tryOneShot t 4 1 fun s id sc c =>
    let s := s.nodePlace id t (nodeOP c.nodeWord) sc [(s.tile t).st.node.satTok sc]
    if c.nodeWord.getLsbD 39 then
      s.updTile t fun x => x.updNode fun n => { n with lsat := false, asat := false, aund := false }
    else s

end Sys2Proof.Machine
end

