-- ==== Sys2Proof/Machine/Tokens.lean ====
section
/-! DEFINITION. Tokens that take no power: the requests of zero-slot circuits (R59), markers and closes that pass
elements (R64, R194, R197), scale tokens (R65, R188), region entries (R241), and tokens that are dropped (R367, R386,
R430). -/
namespace Sys2Proof.Machine

/-! ## Requests of zero-slot circuits (R59) -/

/-- R59: the other inputs of an element show what a firing, or the passage of a marker or close, needs. -/
def State.othersReady (s : State) (t : TileId) (sc : Nat) (c : TileCfg) (others : List Nat) : Bool :=
  others.all (fun i => (s.dataHead t i sc).isSome || c.slotsOf i == 0)
    || (others.all fun i => (s.gateHead t i).isSome || c.slotsOf i == 0)

/-- R59, R60, R169, R185: a pipeline could fire in a scene but for the token at input `i`. -/
def State.pipeAsks (s : State) (id : Nat) (t : TileId) (sc : Nat) (c : TileCfg) (i : Nat) : Bool :=
  let x := s.sceneSt t sc
  let ins := c.inputsOf .pipe
  let f : PipeFiring := { scene := sc, c := c, e := s.pipeIn t sc c ins 0, eats := ins, turns := false }
  let others := match findOp c.stages 0x90 with
    | some w =>
      let (turn, other) := mergeTurn w x.turn
      if i = turn || (i = other && s.gateOf t turn sc) then ins.filter fun j => j != turn && j != other
      else if i = other then [i]
      else ins.filter fun j => j != i && j != other
    | none => ins.filter (· != i)
  !others.contains i && s.pipeFree t f && s.othersReady t sc c others
    && (c.outputsOf .pipe).all fun k => s.roomOn id t k sc (f.needOn x.l k)

/-- R59, R197, R199, R200: a matrix node could fire in a scene but for the token at input `i`, and for the cap of R322. -/
def State.nodeAsks (s : State) (id : Nat) (t : TileId) (sc : Nat) (c : TileCfg) (i : Nat) : Bool :=
  let w := c.nodeWord
  let n := (s.tile t).st.node
  n.oneShot.isNone && s.othersReady t sc c ((s.passInputs t c .node).filter (· != i))
    && (if nodeMode w < 2 then s.nodeFree t w && !(s.filling t (nodeSlots w))
        else slotFree s t .node && s.ticks t && decide (n.busy ≤ s.cycle)
          && (c.outputsOf .node).all fun k => s.roomOn id t k sc (if nodeMode w = 3 then 2 else 1))

/-- R59, R212, R215, R217: a stream command waits for a token of scene `sc` at input `i` only: a write has room, a gather its
destinations' credits, and a scatter its other token, which may come over a circuit without slots too. -/
def State.streamAsks (s : State) (t : TileId) (sc : Nat) (c : TileCfg) (i : Nat) : Bool :=
  s.ticks t && decide (((s.tile t).portNext[i]?).getD 0 ≤ s.cycle) && s.eng.queues.any fun p => match s.stream p.1 [0x02, 0x03, 0x04, 0x06] with
    | some x =>
      let d := cmdD x.cmd
      let k := cmdX x.cmd
      let there (j : Nat) : Bool := c.slotsOf j == 0 || (s.dataHead t j sc).isSome
      x.t == t && !x.a.finished && !x.a.ending && (x.g.q == p.1) && match cmdOpc x.cmd with
        | 0x02 => k == i && s.canSend x sc
        | 0x04 => s.roomFor x && ((d == i && there k) || (k == i && there d))
        | _ => d == i && s.roomFor x
    | none => false

/-- R59: an element that names input `i` in scene `sc` has every other condition of its firing. [log 73 DEDUCED] -/
def State.asks (s : State) (id : Nat) (t : TileId) (e : Element) (sc i : Nat) : Bool :=
  match s.cfg t sc with
  | none => false
  | some c =>
    c.enabled i && c.slotsOf i == 0 && s.holdsScene (s.act id) t sc && c.has e && match e with
    | .pipe => (c.inputsOf .pipe).contains i && s.pipeAsks id t sc c i
    | .node => (s.passInputs t c .node).contains i && s.nodeAsks id t sc c i
    | .agen => s.streamAsks t sc c i

/-- R59: the scenes under which an element asks for a token at an input that holds none and for which none is on its way. -/
def State.askScenes (s : State) (id : Nat) (t : TileId) (e : Element) (i : Nat) : List Nat :=
  if ((s.tile t).inbuf[i]?).getD [] ≠ [] || s.fab.requests.any fun r => r.1.dest == .input t i then []
  else (List.range 4).filter fun sc => s.asks id t e sc i

/-- R59: the inputs without slots of a tile that has not the words of another. -/
def Tile.zeroInputs (x : Tile) : List Nat :=
  (List.range 4).filter fun i => x.cfg.any fun c => match c with
    | some c => c.enabled i && c.slotsOf i == 0
    | none => false

/-- R59, R62: the requests that an element of a tile could make now but for a power token. -/
def State.zeroWants (s : State) (id : Nat) (t : TileId) (e : Element) : Nat :=
  (s.tile t).zeroInputs.countP fun i => s.askScenes id t e i != []

/-- The circuits of an act that end at an input of a tile. -/
def State.linksInto (s : State) (id : Nat) (t : TileId) (i : Nat) : List (Link × Nat) :=
  (s.ownTiles id).flatMap fun u => (List.range 4).flatMap fun sc =>
    match s.cfg u sc with
    | none => []
    | some c => ((List.range 4).filter fun o => c.enabled (4 + o)).flatMap fun o =>
        (s.branches id u o sc).filter fun b => b.1.dest == .input t i

/-- R59: the request on an input under scenes `scs`: one power token is reserved, and the producer may place one token h cycles later. -/
def State.request (s : State) (id : Nat) (t : TileId) (i : Nat) (scs : List Nat) : State :=
  let ls := s.acts.flatMap fun p => (s.linksInto p.1 t i).filter fun b =>
    s.linkSlots p.1 b.1 == 0 && (p.1 != id || scs.contains b.1.scene)
  let reqs := ls.map fun b => (b.1, s.cycle + b.2)
  if reqs = [] then s
  else
    let s := s.takePower id
    { s with fab := { s.fab with requests := s.fab.requests ++ reqs } }

/-! ## Markers and closes (R64, R194, R197) -/

/-- R197, R327: a scene-end curtain that a node consumes while a one-shot word is in force sets that word off; it is placed in
the next cycle on the word's output, unless the node has placed it there for its own scene's word. [log 78 DEDUCED] -/
def State.setOff (s : State) (id : Nat) (t : TileId) (old : TileCfg) (tok : Token) : State :=
  let cur := (s.act id).region.cur
  match s.cfg t cur with
  | none => s
  | some c =>
    if !c.node || nodeMode c.nodeWord < 2 then s
    else
      let s := s.updTile t fun x => x.updNode fun n => { n with oneShot := some cur }
      let outs := (c.outputsOf .node).filter fun o => !((old.outputsOf .node).contains o)
      outs.foldl (fun s o =>
        let p : PendingOut := { due := passDue s t .node o, out := o, scene := cur, tok := tok, paid := false }
        s.updTile t fun x => { x with outq := x.outq ++ [p] }) s

/-- R197: a node consumes a scene-end curtain: its scale latches are zero again, and a one-shot word in force is set off. -/
def State.endScene (s : State) (id : Nat) (t : TileId) (old : TileCfg) (tok : Token) : State :=
  (s.updTile t fun x => x.updNode fun n => { n with latch := Latch.zero }).setOff id t old tok

/-- R64, R197: an element that shows equal heads at all its inputs passes them; markers that differ are the stall fault. A node whose
one-shot word has been set off and has not fired takes no further scene-end curtain. -/
def State.tryPass (s : State) (t : TileId) (e : Element) : State :=
  match s.liveOwner t with
  | none => s
  | some id => match passScene s t e with
    | none => if s.markersDiffer t e then s.regionFault id 0x20 (stallArg s id t.tile) else s
    | some sc => match s.cfg t sc with
      | none => s
      | some c => match heads s t (s.passInputs t c e) with
        | some k :: _ =>
          let ends := e = .node && k.mark && k.kind = 3
          if !(slotFree s t e) || !(s.ticks t) || (ends && (s.tile t).st.node.oneShot.isSome) then s
          else match s.pass id t e sc c k with
          | none => s
          | some s => if ends then s.endScene id t c k else s
        | _ => s

/-! ## Scale tokens (R65, R188, R194) -/

/-- The scale token at the head of an input, with the words of its scene and their number. -/
def State.scaleHead (s : State) (t : TileId) (i : Nat) : Option (BufTok × Nat × TileCfg) :=
  match s.head t i with
  | none => none
  | some b =>
    let sc := b.tok.sc.toNat
    if !isScale b || !(s.ticks t) then none
    else (s.cfg t sc).map fun c => (b, sc, c)

/-- R65, R212: a scale token at the index input of a gather leaves on the outputs of the command, and one at that of a scatter, which
has no destination, nowhere. -/
def State.forwardIndex (s : State) (t : TileId) (inp : Nat) (b : BufTok) : State :=
  match s.eng.queues.findSome? fun p => match s.stream p.1 [0x02, 0x04] with
      | some x => if x.t == t && cmdX x.cmd == inp && !x.a.finished then some x else none
      | none => none with
  | none => s
  | some x =>
    let eat (s : State) : State := ((s.unreserve x.id t [inp]).takeInput x inp).settle x.id
    if cmdOpc x.cmd = 0x04 then (eat s).moved x.id
    else if s.canSend x b.tok.sc.toNat then (eat s).send x b.tok.sc.toNat b.tok
    else s

/-- R65: SCALE_TOKEN_FORWARD, at an input that its pipeline does not make scale-aware, or at an index input. -/
def execScaleTokenForward (t : TileId) (inp : Nat) (s : State) : Host.Outcome State Fault Refusal :=
  .next (match s.liveOwner t, s.scaleHead t inp with
    | some id, some (b, _, c) =>
      if c.has .pipe && (c.inputsOf .pipe).contains inp && !scaleInput c.stages inp then s.forwardScale id t inp c b
      else if c.has .agen then s.forwardIndex t inp b
      else s
    | _, _ => s)

/-- R188: the latches of a pipeline's scene after a scale token at an input. -/
def SceneSt.latch (x : SceneSt) (i : Nat) (b : Byte) : SceneSt :=
  { x with latches := (List.range 4).map fun j =>
      let l := (x.latches[j]?).getD Latch.zero
      if j = i then l.take b else l }

/-- R188, R194: SCALE_TOKEN_LATCH, at a scale-aware input of a pipeline or at an input of a node; one at a node's MP is
discarded. -/
def execScaleTokenLatch (t : TileId) (inp : Nat) (s : State) : Host.Outcome State Fault Refusal :=
  .next (match s.liveOwner t, s.scaleHead t inp with
    | some id, some (b, sc, c) =>
      let eat (s : State) : State := (((s.unreserve id t [inp]).consumeAll id t [inp]).settle id).moved id
      if c.has .pipe && (c.inputsOf .pipe).contains inp && scaleInput c.stages inp then
        (eat s).updTile t fun x =>
          { x with fired := true,
                   st := { x.st with scenes := x.st.scenes.set sc (((x.st.scenes[sc]?).getD SceneSt.zero).latch inp b.tok.arg) } }
      else if c.has .node && nodeAP c.nodeWord = inp then
        (eat s).updTile t fun x => x.updNode fun n => { n with latch := n.latch.take b.tok.arg }
      else if c.has .node && (s.passInputs t c .node).contains inp then eat s
      else s
    | _, _ => s)

/-! ## Region entries (R241) -/

/-- The first token of a buffer that is valid and has not entered, given scene `sc`. -/
def enterFirst (cycle sc : Nat) : List BufTok → List BufTok
  | [] => []
  | b :: l =>
    if b.entered then b :: enterFirst cycle sc l
    else if b.valid ≤ cycle then b.enter sc :: l
    else b :: l

/-- R136, R241, R370: REGION_ENTRY_TOKEN: a token from another region takes the scene in force; behind a curtain, and in a region that is
quiescent, it stays as it is. -/
def execRegionEntryToken (t : TileId) (inp : Nat) (s : State) : Host.Outcome State Fault Refusal :=
  .next (match s.ownerOf t with
    | none => s
    | some id =>
      if (s.act id).curtain.isSome || (s.act id).region.quiet then s
      else s.updTile t fun x =>
        { x with inbuf := x.inbuf.set inp (enterFirst s.cycle (s.act id).region.cur ((x.inbuf[inp]?).getD [])) })

/-! ## Tokens that are dropped (R367, R386, R430) -/

/-- The first of the tokens of kind `p` that have arrived where they are dropped. [log 80 DEDUCED] -/
def State.firstDrop (s : State) (p : Link → Bool) : Option DropTok :=
  s.fab.drops.find? fun d => decide (d.due ≤ s.cycle) && p d.link

/-- R367, R386, R430: a token dropped; its credit returns in the next cycle. -/
def State.dropTok (s : State) (d : DropTok) : State :=
  let drops := s.fab.drops.erase d
  ({ s with fab := { s.fab with drops := drops } }.returnCredit d.link (s.cycle + 1))

/-- R367: what the drop of a token at a hedge is counted by. -/
def DropTok.hedgeAt (d : DropTok) : HedgeAt := { who := d.who, die := d.link.src.die, dest := d.link.dest }

/-- R367: HEDGE: the hedge in front of a tile of die `die` drops a token, and the interval counts it by circuit. -/
def execHedge (die : Nat) (s : State) : Host.Outcome State Fault Refusal :=
  .next (match s.firstDrop fun l => match l.dest with
      | .hedge u _ _ => u.die == die
      | _ => false with
    | none => s
    | some d =>
      let s := s.dropTok d
      let counts := assocSet d.hedgeAt (tally d.hedgeAt s.fab.hedgeCount + 1) s.fab.hedgeCount
      { s with fab := { s.fab with hedgeCount := counts } })

/-- R430: FUSED_TILE_DROP: a tile that the repair map lists drops a token, and the sender's partition counts it. -/
def execFusedTileDrop (die : Nat) (s : State) : Host.Outcome State Fault Refusal :=
  .next (match s.firstDrop fun l => match l.dest with
      | .listed u => u.die == die
      | _ => false with
    | none => s
    | some d =>
      (s.dropTok d).countPart d.who.part 0x71 1)

/-- R386: MISROUTED_TOKEN_DROP: a token that reaches no consumer, or leaves the die, is dropped. -/
def execMisroutedTokenDrop (die : Nat) (s : State) : Host.Outcome State Fault Refusal :=
  .next (match s.firstDrop fun l => l.dest == .off && l.src.die == die with
    | none => s
    | some d => s.dropTok d)

end Sys2Proof.Machine
end

