-- ==== Sys2Proof/Machine/Bell.lean ====
section
/-! DEFINITION. Bell strokes (R134, R259 to R266, R414, R415), swaps, and the waking of stream banks (R274). -/
namespace Sys2Proof.Machine

/-! ## Swaps (R259, R262, R265) -/

/-- R186, R262: the closes that the sources of a scene owe leave ahead of its curtain. -/
def State.flushCloses (s : State) (id sc : Nat) : State :=
  (s.sources id sc).foldl (fun s p => if p.2 = .pipe && (s.sceneSt p.1 sc).closes != [] then s.pushCloses p.1 sc else s) s

/-- R262: the armed swap of act `id` to scene `k` acts. [log 83 DEDUCED] -/
def State.swap (s : State) (id k : Nat) : State :=
  let r := (s.act id).region
  let els := s.elements id r.cur
  let sk := s.sinks id r.cur
  let s := s.flushCloses id r.cur
  let s := s.updAct id fun a =>
    let a := a.nextMarker.updRegion fun g => { g with cur := k, arm := false, tgt := 0, quiet := false }
    let a := a.updSlot r.cur fun sl => { sl with st := .retiring, ends := if sk = [] then sl.ends else sl.ends + 1 }
    let a := a.updSlot k fun sl => { sl with st := .inForce }
    { a with ends := if els = [] then a.ends
        else a.ends ++ [{ scene := r.cur, num := some r.marker, tag := r.cur, counts := true, elems := els, sinks := sk }] }
  -- R263: a pre-emption curtain of this cycle comes after the scene-end curtain, at the sources of the new scene.
  let late := match (s.act id).curtain with
    | some c => if c.began = s.cycle then some c else none
    | none => none
  let s := match late with
    | some c => s.takeMarker id 1 c.num
    | none => s
  let s := s.insertMarker id 3 r.cur r.marker
  let s := match late with
    | some c => (s.updAct id fun a => { a with curtain := some { c with sinks := s.sinks id k } }).insertMarker id 1 k c.num
    | none => s
  let s := (s.enterScene id k).settle id
  s.traceAct 0x02 id (r.cur % 4 + k % 4 * 4 + r.marker.toNat * 256) 0

/-- R262, R265: whether a stroke acts on the armed swap of an act, but for the parity of R259. -/
def mayStrike (a : Act) : Bool :=
  let sl := a.slot a.region.tgt
  a.region.arm && !a.noCut && slotLoaded sl && decide (sl.ends < 3)

/-- R259, R262, R265: a stroke at the region of act `id`: a parity error in the target empties the slot and takes the region to
its cut. A swap armed in this cycle is not seen. -/
def State.strikeAct (s : State) (id : Nat) : State :=
  let a := s.act id
  if !mayStrike a || decide (s.cycle ≤ a.region.armed) then s
  else match s.parityTile id a.region.tgt with
  | some t =>
    let arg := parityArg s t a.region.tgt
    (s.emptySlot id a.region.tgt).regionFault id 0x50 arg
  | none => s.swap id a.region.tgt

/-- R321: the onset of the cues that wait for a stroke is reckoned from this one. -/
def Act.struck (a : Act) (cycle : Nat) : Act :=
  { a with cues := a.cues.map fun c => if c.onset.isNone then { c with onset := some (cycle + c.off) } else c }

/-- R261, R321: whether a stroke is one of those that act on a region's swaps. -/
def hears (a : Act) (slot : Bool) : Bool := slot || !a.region.bsel

/-- R261: a stroke reaches a region, which takes it at the next cycle of its quadrant's clock. -/
def State.reachAct (s : State) (id : Nat) : State :=
  if s.ticks (s.act id).region.corner then s.strikeAct id else s.updAct id fun a => { a with strokeDue := true }

/-- R134, R261: a stroke reaches the regions of a partition on a die. -/
def State.strikeDie (s : State) (part die : Nat) (slot : Bool) : State :=
  let ids := (s.acts.filter fun p => p.2.present && p.2.region.die == die && (s.ctx p.2.ctx).part == part
    && hears p.2 slot).map (·.1)
  ids.foldl (fun s id => (s.updAct id (·.struck s.cycle)).reachAct id) s

/-- R261: the strokes that have waited for a quadrant's clock act. [log 82 DEDUCED] -/
def State.strikeLate (s : State) : State :=
  ((s.acts.filter fun p => p.2.strokeDue && p.2.present && s.ticks p.2.region.corner).map (·.1)).foldl
    (fun s id => (s.updAct id fun a => { a with strokeDue := false }).strikeAct id) s

/-! ## Strokes (R261, R414 to R416) -/

/-- One more stroke on which a die has acted. -/
def Bell.act (b : Bell) (part die : Nat) : Bell :=
  let n := b.count part die + 1
  { b with acted := b.acted.filter (fun x => !(x.1 == part && x.2.1 == die)) ++ [(part, die, n)] }

/-- R416: while the generators slew, a slot stroke moves by at most 1 ns, by an amount that the manual leaves open. -/
def State.slewStroke (s : State) (part : Nat) : State :=
  if s.ctl.bell.slew = 0 then s
  else
    let (x, s) := s.free
    let b := s.ctl.bell
    let slots := b.slots.map fun p => if p.1 = part then (p.1, p.2 + x % 5 - 2) else p
    { s with ctl := { s.ctl with bell := { b with slots := slots, slew := b.slew - 1 } } }

/-- R399, R414: the first die on which a slot stroke acts: the cores are told of it. -/
def State.ringSlot (s : State) (part die : Nat) : State :=
  let b := s.ctl.bell
  if b.acted.any fun x => x.1 == part && x.2.1 != die && decide (b.count part die < x.2.2) then s
  else (s.slewStroke part).signal 12

/-- R414, R415: the next stroke of a partition acts on a die, once the generator that the die follows, or for `late` the
standby, has struck it and it has reached the die. Where no edge of the selected source has been seen, the phase of a partition's first
stroke comes from outside. -/
def State.stroke (s : State) (part die : Nat) (late : Bool) (which : Nat → Bool) : State :=
  match s.part? part with
  | none => s
  | some p =>
    let b := s.ctl.bell
    let n := b.count part die
    let j := n % strokesOf p.spec
    let heard := b.follows die
    let gen := if late then (heard + 1) % 2 else heard
    let skew := skewOf gen die
    let t := match assoc? part b.slots, b.edge with
      | some t, _ => t
      | none, some e => firstStroke p.spec e (s.cycle - skew)
      | none, none => s.cycle - skew
    let due := strokeTime p.spec t n
    if p.spec.slotLen = 0 || 8 ≤ die || !which j || s.cdFailed gen || s.cycle < due + skew then s
    else if late && (b.standby.contains die || s.cycle < due + skewOf heard die + 16) then s
    else
      let slots := if (assoc? part b.slots).isSome then b.slots else assocSet part t b.slots
      let s := { s with ctl := { s.ctl with bell := { b with slots := slots } } }
      let s := if j = 0 then s.ringSlot part die else s
      let b := s.ctl.bell.act part die
      let b := if late then { b with standby := b.standby ++ [die] } else b
      { s with ctl := { s.ctl with bell := b } }.strikeDie part die (j == 0)

/-- R21, R414: an edge of the selected source: the strokes of the partitions that have had none are counted from it. -/
def State.timeEdge (s : State) : State :=
  let b := s.ctl.bell
  if b.lost.contains b.source then s
  else
    let new := (s.sch.parts.filter fun p => p.spec.slotLen ≠ 0 && (assoc? p.id b.slots).isNone).map fun p =>
      (p.id, firstStroke p.spec s.cycle (s.cycle + 1))
    { s with ctl := { s.ctl with bell := { b with edge := some s.cycle, slots := b.slots ++ new } } }

/-- R414: SLOT_STROKE. -/
def execSlotStroke (part die : Nat) (s : State) : Host.Outcome State Fault Refusal :=
  .next (s.stroke part die false fun j => j == 0)

/-- R414: SYMBOL_STROKE. -/
def execSymbolStroke (part die j : Nat) (s : State) : Host.Outcome State Fault Refusal :=
  .next (s.stroke part die false fun i => i == j && j != 0)

/-- R415: STANDBY_STROKE_TAKEOVER: the active generator's stroke has not arrived 16 cycles after its due cycle. -/
def execStandbyStrokeTakeover (part die : Nat) (s : State) : Host.Outcome State Fault Refusal :=
  .next (s.stroke part die true fun _ => true)

/-! ## Stream banks (R274) -/

/-- R274: BANK_WAKE: the wake of a bank that moved into a window or the wings ends. Its bytes have been zero since the
move, and no access has reached it. -/
def execBankWake (die bank : Nat) (s : State) : Host.Outcome State Fault Refusal :=
  let key := die * 512 + bank
  let b := s.bank key
  .next (if b.wake = 0 || s.cycle < b.wake then s
    else { s with fab := { s.fab with banks := assocSet key { b with wake := 0 } s.fab.banks } })

end Sys2Proof.Machine
end

