-- ==== Sys2Proof/Machine/Order.lean ====
section
/-! DEFINITION. What comes first in a cycle (R62, R71, R263, R271, R272), the parity of tile buffers (R56), and the firings and stream
tokens that keep that order (R168, R196 to R199, R211, R212, R219). -/
namespace Sys2Proof.Machine

/-! ## Strokes and refills before firings (R71) -/

/-- R71: a stroke that the region of an act hears, or the refill of its tokens, is due in this cycle and has still to come. -/
def State.early (s : State) (id : Nat) : Bool := decide ((s.interval + 1) * 2300 ≤ s.cycle) || s.strokeWaits id

/-! ## The order of requests for power tokens (R62) -/

/-- R62: the pipeline of a tile could fire now but for a power token. -/
def State.pipeWants (s : State) (id : Nat) (t : TileId) : Bool :=
  match s.pipeFiring id t with
  | some x => s.pipeFree t x && s.pipeRoom id t x && !(s.pledged id t x.scene (x.c.inputsOf .pipe)) && s.zeroHeads t x.eats == 0
  | none => false

/-- R62, R199: a one-shot word of a mode could fire now but for a power token. -/
def State.oneShotWants (s : State) (id : Nat) (t : TileId) (mode : Nat) : Bool :=
  match s.oneShotScene id t mode with
  | some (sc, c, trigger) =>
    let is := if trigger then [nodeAP c.nodeWord] else []
    let n := if mode = 3 then 2 else if mode = 4 then 1 else 0
    decide ((s.tile t).st.node.busy ≤ s.cycle) && (n == 0 || s.roomOn id t (nodeOP c.nodeWord) sc n) && !(s.pledged id t sc is)
      && s.zeroHeads t is == 0
  | none => false

/-- R62, R196: an MM or MM.SP word could fire now but for a power token. -/
def State.mmWants (s : State) (id : Nat) (t : TileId) : Bool :=
  match s.firingScene (s.act id) t .node with
  | none => false
  | some sc => match s.cfg t sc with
    | none => false
    | some c => decide (nodeMode c.nodeWord < 2) && s.nodeFree t c.nodeWord && (s.tile t).st.node.oneShot.isNone
        && !(s.filling t (nodeSlots c.nodeWord))
        && !(s.pledged id t sc (c.inputsOf .node)) && s.zeroHeads t (c.inputsOf .node) == 0 && s.underCap id

/-- R62: the node of a tile could fire now but for a power token. -/
def State.nodeWants (s : State) (id : Nat) (t : TileId) : Bool :=
  slotFree s t .node && s.ticks t && (s.mmWants id t || [2, 3, 4].any (s.oneShotWants id t))

/-- R62, R212: the power tokens that a stream could use now. -/
def State.streamWants (s : State) (x : Stream) : Nat :=
  let cnt := cmdCnt x.cmd
  let there (i : Nat) : Bool := (s.inputTok x i).isSome
  let open_ := !x.a.finished && s.ticks x.t
  match cmdOpc x.cmd with
  | 0x01 => if open_ && decide (x.a.pos < cnt) && decide (scalesBefore x ≤ x.a.scaled) && s.canSend x (x.cur s) then 1 else 0
  | 0x02 => match s.inputTok x (cmdX x.cmd) with
    | some k => if open_ && decide (x.a.idx < cnt) && s.canSend x k.sc.toNat then 2 else 0
    | none => 0
  | 0x04 => if open_ && !x.a.ending && decide (x.a.idx < cnt) && s.roomFor x && there (cmdD x.cmd) && there (cmdX x.cmd) then 2 else 0
  | 0x38 => 0
  | _ => if open_ && !x.a.ending && decide (x.a.pos < cnt) && s.roomFor x && there (cmdD x.cmd) then 1 else 0

/-- R62, R212: the power tokens that the streams of a port tile could use now. -/
def State.portWants (s : State) (t : TileId) : Nat :=
  (s.eng.queues.map fun p => match s.stream p.1 [0x01, 0x02, 0x03, 0x04, 0x06] with
    | some x => if x.t = t then s.streamWants x else 0
    | none => 0).foldl (· + ·) 0

/-- R59, R62: the power tokens that an element of a tile could use now, those that it would reserve among them. -/
def State.wants (s : State) (id : Nat) (t : TileId) (e : Element) : Nat :=
  s.zeroWants id t e + match e with
    | .pipe => (s.pipeWants id t).toNat
    | .node => (s.nodeWants id t).toNat
    | .agen => if t.tile < 256 then 0 else s.portWants t

/-- R62: the power tokens that the elements of a tile could use now. -/
def State.tileWants (s : State) (t : TileId) : Nat :=
  match s.liveOwner t with
  | none => 0
  | some id => s.wants id t .pipe + s.wants id t .node + s.wants id t .agen

/-- R62: the power tokens that the elements before one of a region ask for in this cycle. -/
def State.wantsBefore (s : State) (root : Nat) (t : TileId) (e : Element) : Nat :=
  (((s.act root).region.tiles.takeWhile (· != t)).map s.tileWants).foldl (· + ·) 0
    + match e, s.liveOwner t with
      | .node, some id => s.wants id t .pipe
      | _, _ => 0

/-- R62, R71: an element that asks for `n` power tokens gets them in its turn: where the count does not reach it, it is refused. -/
def State.inTurn (s : State) (id : Nat) (t : TileId) (e : Element) (n : Nat) (f : State → State) : State :=
  let root := (s.act id).regionRoot
  let left := (s.act root).tokens
  if s.early id then s
  else if n = 0 || left < n || n + 16 * (s.act root).region.tiles.length ≤ left then f s
  else if left < n + s.wantsBefore root t e then s.refuse id t
  else f s

/-! ## Requests of zero-slot circuits (R59) -/

/-- R59, R62, R71, R319: the request of an element for a token at an input, in the order of R62 and after a stroke or a refill of the
cycle; without a power token, or above the cap of R322, it is refused. [log 73 DEDUCED] -/
def State.tryRequest (s : State) (id : Nat) (t : TileId) (e : Element) (i : Nat) : State :=
  match s.askScenes id t e i with
  | [] => s
  | scs =>
    let capped := e = .node && !(s.underCap id) && scs.any fun sc => match s.cfg t sc with
      | some c => decide (nodeMode c.nodeWord < 2)
      | none => false
    s.inTurn id t e 1 fun s =>
      if capped || (s.act (s.act id).regionRoot).tokens = 0 then s.refuse id t else s.request id t i scs

/-- R59: ZERO_SLOT_REQUEST: the request is outstanding until a token of the circuit takes it. -/
def execZeroSlotRequest (t : TileId) (inp : Nat) (s : State) : Host.Outcome State Fault Refusal :=
  .next (match s.liveOwner t with
    | none => s
    | some id => ([.pipe, .node, .agen] : List Element).foldl (fun s e => s.tryRequest id t e inp) s)

/-- R59: every element that waits for nothing but a token over a circuit without slots asks for it in the first cycle in which it does,
in the order of R62. -/
def State.requestAll (s : State) : State :=
  let ts := s.fab.tiles.filter fun p => p.2.zeroInputs != []
  if ts.isEmpty then s
  else (List.range (8 * 320)).foldl (fun s k =>
    let t : TileId := { die := k / 320, tile := k % 320 }
    match assoc? t ts, s.liveOwner t with
    | some x, some id => ([.pipe, .node, .agen] : List Element).foldl (fun s e =>
        x.zeroInputs.foldl (fun s i => s.tryRequest id t e i) s) s
    | _, _ => s) s

/-! ## Parity of tile buffers (R56) -/

/-- R56, R273: the lowest input of a tile at which a token stands that fails the parity of its buffer. -/
def State.badInput (s : State) (t : TileId) : Option Nat :=
  (List.range 4).find? fun i => match ((s.tile t).inbuf[i]?).getD [] with
    | b :: _ => b.bad && decide (b.valid ≤ s.cycle)
    | [] => false

/-- R56: a tile with such a token raises the fault; otherwise it goes on. -/
def State.checked (s : State) (id : Nat) (t : TileId) (f : State → State) : State :=
  match s.badInput t with
  | some i => s.regionFault id 0x50 (structArg 4 t.die t.tile i 0)
  | none => f s

/-- An element of a tile fires, if it can, in its turn. -/
def State.fireInTurn (s : State) (t : TileId) (e : Element) (n : State → Nat → Nat) (f : State → State) : State :=
  match s.liveOwner t with
  | none => s
  | some id => s.checked id t fun s => s.inTurn id t e (n s id) f

/-! ## Firings (R168, R196 to R199) -/

/-- R168: PIPELINE_FIRING. -/
def execPipelineFiring (t : TileId) (s : State) : Host.Outcome State Fault Refusal :=
  .next (s.fireInTurn t .pipe (fun s id => (s.pipeWants id t).toNat) (·.tryFire t))

/-- R196: MM. -/
def execMm (t : TileId) (s : State) : Host.Outcome State Fault Refusal :=
  .next (s.fireInTurn t .node (fun s id => (s.nodeWants id t).toNat) (·.tryNode t 0))

/-- R196: MM.SP. -/
def execMmSp (t : TileId) (s : State) : Host.Outcome State Fault Refusal :=
  .next (s.fireInTurn t .node (fun s id => (s.nodeWants id t).toNat) (·.tryNode t 1))

/-- R46, R198: ACC.CLR. -/
def execAccClr (t : TileId) (s : State) : Host.Outcome State Fault Refusal :=
  .next (s.fireInTurn t .node (fun s id => (s.nodeWants id t).toNat) (·.tryAccClr t))

/-- R49, R198: DRAIN. -/
def execDrain (t : TileId) (s : State) : Host.Outcome State Fault Refusal :=
  .next (s.fireInTurn t .node (fun s id => (s.nodeWants id t).toNat) (·.tryDrain t))

/-- R48, R198: SAT. -/
def execSat (t : TileId) (s : State) : Host.Outcome State Fault Refusal :=
  .next (s.fireInTurn t .node (fun s id => (s.nodeWants id t).toNat) (·.trySat t))

/-- R64: MARKER_PASSAGE. -/
def execMarkerPassage (t : TileId) (el : Element) (s : State) : Host.Outcome State Fault Refusal :=
  .next (match s.liveOwner t with
    | none => s
    | some id => s.checked id t (·.tryPass t el))

/-! ## Stream tokens (R211, R212, R219, R271, R272) -/

/-- R211: READ_STREAM_TOKEN: a read command places its next token. -/
def execReadStreamToken (q : QueueId) (s : State) : Host.Outcome State Fault Refusal :=
  .next (match s.stream q [0x01, 0x02, 0x38] with
    | none => s
    | some x => s.checked x.id x.t fun s => s.inTurn x.id x.t .agen (s.streamWants x) fun s => s.portTurn q x.t (·.readToken x))

/-- R212: WRITE_STREAM_TOKEN: a write command stores what it holds, takes one token and stores it. -/
def execWriteStreamToken (q : QueueId) (s : State) : Host.Outcome State Fault Refusal :=
  .next (match s.stream q [0x03, 0x04, 0x06] with
    | none => s
    | some x => s.checked x.id x.t fun s => s.inTurn x.id x.t .agen (s.streamWants x) fun s => s.portTurn q x.t (·.writeToken q))

/-- R219: RD.OPM. -/
def execRdOpm (q : QueueId) (s : State) : Host.Outcome State Fault Refusal :=
  .next (match s.fillHome q with
    | some (_, t) => s.portTurn q t (·.fillToken q)
    | none => s)

/-! ## Marks (R137, R263, R373) -/

/-- R137, R263, R373: MARK_INSERTION: a mark that is due is inserted when no cut is in progress, after a stroke of this cycle. -/
def execMarkInsertion (act : Nat) (s : State) : Host.Outcome State Fault Refusal :=
  let a := s.act act
  .next (if 0 < a.markDue && a.cutRun.isNone && a.present && !(s.early act) then s.insertMark act else s)

end Sys2Proof.Machine
end

