-- ==== Sys2Proof/Machine/Power.lean ====
section
/-! DEFINITION. The power interval boundary: throttle events, undeclared energy, hedge records, caps and floors, cue
windows, token counts and status blocks (R134, R316 to R323, R367, R409 to R413). -/
namespace Sys2Proof.Machine

/-! ## The interval that ends (R319, R322, R367) -/

/-- R367: the location in a hedge record. -/
def hedgePlace (d : Dest) : Dbl :=
  match d with
  | .hedge u dir circ => BitVec.ofNat 64 (u.tile % 4096 + u.die % 8 * 2 ^ 12 + dir % 4 * 2 ^ 15 + circ % 4 * 2 ^ 17)
  | _ => 0

/-- R367: the record of a circuit that dropped `n` tokens at a hedge. -/
def State.hedgeRecord (s : State) (h : HedgeAt) (n : Nat) : State :=
  let c := h.who
  let bs := reflectBytes 1 0x21 c.ctx c.depth 0 (hedgePlace h.dest) 0 n
  ((s.report c.parent c.part bs).countPart c.part 0x70 n).trace 0x0B c.ctx h.die 0 (hedgePlace h.dest).toNat n

/-- R367: the records of the interval that ends. -/
def State.hedgeRecords (s : State) : State :=
  let s := s.fab.hedgeCount.foldl (fun s p => s.hedgeRecord p.1 p.2) s
  { s with fab := { s.fab with hedgeCount := [] } }

/-! ## Caps and floors (R410, R411) -/

/-- R410: the caps that govern from an interval on. -/
def State.takeCaps (s : State) : State :=
  let p := s.ctl.power
  let due := p.caps.filter fun c => decide (c.1 ≤ s.interval)
  match due.getLast? with
  | none => s
  | some c =>
    { s with ctl := { s.ctl with power := { p with cap := c.2, caps := p.caps.filter fun c => !decide (c.1 ≤ s.interval) } } }

/-- R411: the floor to suspend next: the most recently activated, and of equals the higher CTXID. -/
def State.nextSuspended (s : State) : Option Ctx :=
  argMin (fun c => (2 ^ 64 - c.floorSince.getD 0) * 4096 + (4095 - c.id)) s.countedFloors

/-- R411: floors suspended, at most `n`, until the sum fits under the cap. -/
def suspendFloors : Nat → State → State
  | 0, s => s
  | n + 1, s =>
    if s.floorSum + 90000 ≤ s.ctl.power.cap then s
    else match s.nextSuspended with
    | none => s
    | some c =>
      let p := s.ctl.power
      let s := { s with ctl := { s.ctl with power := { p with suspended := p.suspended ++ [c.id] } } }
      suspendFloors n (s.report (some c.id) c.part (reflectBytes 3 0 c.id c.depth 0 0 (BitVec.ofNat 64 c.floor) 0))

/-- R411: suspended floors resumed, the last suspended first, while the sum fits. A floor no longer active is forgotten. -/
def resumeFloors : Nat → State → State
  | 0, s => s
  | n + 1, s =>
    let p := s.ctl.power
    match p.suspended.getLast? with
    | none => s
    | some c =>
      let s' := { s with ctl := { s.ctl with power := { p with suspended := p.suspended.dropLast } } }
      if !(s.floorActive c) then resumeFloors n s'
      else if s'.floorSum + 90000 ≤ s.ctl.power.cap then resumeFloors n s' else s

/-- R411: the floors after a cap takes the place of `old`: suspended ones resume when it rises. -/
def State.fitFloors (s : State) (old : Nat) : State :=
  let s := if old < s.ctl.power.cap then resumeFloors s.ctl.power.suspended.length s else s
  suspendFloors s.ctxs.length s

/-! ## Cue windows (R321 to R324) -/

/-- R321, R323: the cue of an act that would start at the boundary into interval `k`. -/
def Act.nextCue (a : Act) (k : Nat) : Option CueWin :=
  match a.cues.find? fun c => c.start.isNone with
  | none => none
  | some c => match c.onset with
    | some o => if o ≤ k * 2300 && c.floor ≤ k && a.cueEnd ≤ k then some c else none
    | none => none

/-- R323: the increase of declared power that the starts in `ids` bring a region, in pJ an interval times 255. -/
def State.increase (s : State) (root k : Nat) (ids : List Nat) : Nat :=
  let d := s.declared root k
  let more := (ids.filter fun id => (s.act id).regionRoot == root).map fun id =>
    match (s.act id).nextCue k with
    | some c => c.intensity.toNat
    | none => 0
  (Nat.min 255 (more.foldl (· + ·) d) - d) * s.matrixPower root

/-- R323: the increase on a die. -/
def State.dieIncrease (s : State) (die k : Nat) (ids : List Nat) : Nat :=
  ((s.regionRoots.filter fun p => p.2.region.die == die).map fun p => s.increase p.1 k ids).foldl (· + ·) 0

/-- R323: the windows of a die that start at interval `k`: those in descending order of ACTID wait, by at most 2 intervals each,
until the increase is within 15 W. -/
def chooseStarts (s : State) (die k : Nat) : Nat → List Nat → List Nat
  | 0, ids => ids
  | n + 1, ids =>
    if s.dieIncrease die k ids ≤ 15000000 * 255 then ids
    else match argMin (fun id => 512 - id) (ids.filter fun id => match (s.act id).nextCue k with
        | some c => decide (c.delay < 2)
        | none => false) with
    | none => ids
    | some id => chooseStarts s die k n (ids.filter (· != id))

/-- The first cue that has not started changed. -/
def updFirstCue (f : CueWin → CueWin) : List CueWin → List CueWin
  | [] => []
  | c :: l => if c.start.isNone then f c :: l else c :: updFirstCue f l

/-- R321, R323: the windows of a die that start, and those delayed. [log 84 DEDUCED] -/
def State.startCues (s : State) (die k : Nat) : State :=
  let ready := (s.acts.filter fun p => p.2.present && p.2.region.die == die && (p.2.nextCue k).isSome).map (·.1)
  let go := chooseStarts s die k ready.length ready
  ready.foldl (fun s id => match (s.act id).nextCue k with
    | none => s
    | some c =>
      if go.contains id then
        (s.updAct id fun a => { a with cues := updFirstCue (fun c => { c with start := some k }) a.cues, cueEnd := k + c.len }).traceAct
          0x0C id (c.intensity.toNat + c.len * 2 ^ 16) c.delay
      else s.updAct id fun a => { a with cues := updFirstCue (fun c => { c with delay := c.delay + 1 }) a.cues }) s

/-- R321, R324: windows that have ended dropped, and the cues of an act that is revoked or cancelled. -/
def Act.endCues (a : Act) (k : Nat) : Act :=
  let gone := match a.curtain with
    | some c => c.reason == 1 || c.reason == 2
    | none => false
  { a with cues := if gone then [] else a.cues.filter fun c => match c.start with
      | some n => decide (k < n + c.len)
      | none => true }

/-- R321 to R324: the cue windows at the boundary into the present interval. [log 84 DEDUCED] -/
def State.cueWindows (s : State) : State :=
  let s := s.acts.foldl (fun s p => s.updAct p.1 (·.endCues s.interval)) s
  (List.range 8).foldl (fun s die => s.startCues die s.interval) s

/-! ## Counts, points, levels and status (R316, R318, R409, R412, R413) -/

/-- R410: budgets held within what is left of a limit, region by region. -/
def withinLimit : Nat → List (Nat × Nat) → List (Nat × Nat)
  | _, [] => []
  | left, p :: l => (p.1, Nat.min left p.2) :: withinLimit (left - p.2) l

/-- R318, R410: the budgets of the regions: those that firmware chooses, no lower than the lowest, and the lowest where those would pass
the limits of R410; where even they pass them, the limits hold. [log 60 DESIGN CHOICE] -/
def State.budgetsOf (s : State) (budgets : List (Nat × Nat)) : List (Nat × Nat) :=
  let bs := s.regionRoots.map fun p => (p.1, Nat.max (tally p.1 budgets) (s.lowestBudget p.1))
  if (bs.map (·.2)).foldl (· + ·) 0 ≤ s.budgetLimit then bs
  else withinLimit s.budgetLimit (s.regionRoots.map fun p => (p.1, s.lowestBudget p.1))

/-- R318, R409: the count of a region: N_r of its budget, or the last count again while no power master computes. -/
def State.refill (s : State) (root budget : Nat) : State :=
  if s.cdFailed s.ctl.power.master then
    s.updAct root fun a => { a with tokens := a.granted }
  else
    let n := s.tokensFor root budget
    s.updAct root fun a => { a with tokens := n, granted := n }

/-- R410: the draw of the interval that ends kept with those of the 9998 before it. -/
def State.keepDraw (s : State) : State :=
  let p := s.ctl.power
  { s with ctl := { s.ctl with power := { p with draws := (s.intervalDraw :: p.draws).take 9999 } } }

/-- R316: the operating points that the power core chooses. -/
def State.setPoints (s : State) (ps : List (Nat × Nat)) : State :=
  let points := (ps.filter fun p => decide (p.1 < 32) && decide (p.2 < 4)).foldl (fun l p => assocSet p.1 p.2 l) s.fab.points
  { s with fab := { s.fab with points := points } }

/-- R412: the thermal level of a stack taken; a change is counted and signalled. -/
def State.setLevel (s : State) (stack level : Nat) : State :=
  if 8 ≤ stack || 4 ≤ level || tally stack s.ctl.power.thermal = level then s
  else
    let s := { s with ctl := { s.ctl with power := { s.ctl.power with thermal := assocSet stack level s.ctl.power.thermal } } }
    let ps := s.sch.parts.map (·.scaleShare stack level)
    (({ s with sch := { s.sch with parts := ps } }).countPkg 0x82 1).signal 10

/-- R413: the fields of a partition's status block, as five doubles. [log 85 DEDUCED] -/
def State.statusFields (s : State) (p : Partition) : List Nat :=
  let lv (d : Nat) : Nat := tally d s.ctl.power.thermal
  let susp := (s.ctl.power.suspended.filter fun c => (s.ctx c).part == p.id).length
  [s.ctl.power.cap + s.floorSum * 2 ^ 32, susp,
   ((List.range 8).map fun d => lv d * 2 ^ (8 * d)).foldl (· + ·) 0,
   ((List.range 8).map fun d => (thermalFactor (lv d) - 1) * 2 ^ (8 * d)).foldl (· + ·) 0]

/-- R413: a partition's status block written where a field has changed. -/
def State.writeStatus (s : State) (p : Partition) : State :=
  let fs := s.statusFields p
  if p.statusWritten = fs then s
  else
    let s := s.updPart p.id fun p => { p with statusWritten := fs }
    if p.spec.status = 0 || !populated p.spec.status then s
    else s.storeList p.spec.status ((fs ++ [0, 0, 0, 0]).flatMap (leBytes 8))

/-- R134: in partitions without a bell the boundary stands in for the stroke. -/
def State.strikeBellless (s : State) : State :=
  (s.sch.parts.filter fun p => p.spec.slotLen == 0).foldl (fun s p =>
    (List.range 8).foldl (fun s die => s.strikeDie p.id die true) s) s

/-- R321, R414: the bell strokes that are due in the cycle of a boundary, where their time is known. -/
def State.strikeKnown (s : State) : State :=
  (s.sch.parts.filter fun p => p.spec.slotLen != 0 && (assoc? p.id s.ctl.bell.slots).isSome).foldl (fun s p =>
    (List.range 8).foldl (fun s die => s.stroke p.id die false fun _ => true) s) s

/-- R350: each running act is charged the tiles of its rectangle for the interval. -/
def State.chargeActs (s : State) : State :=
  s.acts.foldl (fun s p => if p.2.life = .running then s.charge p.2.ctx (p.2.region.w * p.2.region.h) else s) s

/-- R318: a power interval boundary. -/
def State.boundary (s : State) (budgets points levels : List (Nat × Nat)) : State :=
  let s := s.keepDraw
  -- R319, R322: a region that has been switched out in the interval counts with the others.
  let roots := (s.acts.filter fun p => p.2.life != .free && p.2.root.isNone).map (·.1)
  let s := roots.foldl (fun s r => s.endInterval r) s
  let s := s.hedgeRecords.chargeActs
  let s := { s with interval := s.interval + 1 }
  let s := levels.foldl (fun s p => s.setLevel p.1 p.2) (s.setPoints points)
  -- R409: while no power master computes, cap, floors and status blocks stand as they are.
  let dead := s.cdFailed s.ctl.power.master
  let s := if dead then s else s.takeCaps.fitFloors s.ctl.power.cap
  -- R321: the strokes of this cycle act before the windows are reckoned.
  let s := s.strikeBellless.strikeKnown.cueWindows
  let s := (s.budgetsOf budgets).foldl (fun s p => s.refill p.1 p.2) s
  let s := if dead then s else s.sch.parts.foldl (fun s p => s.writeStatus p) s
  s.restoreDrained.signal 9

/-- R318: POWER_INTERVAL_BOUNDARY, once 2300 cycles have passed since the last. [log 60 DESIGN CHOICE] -/
def execPowerIntervalBoundary (budgets points levels : List (Nat × Nat)) (s : State) : Host.Outcome State Fault Refusal :=
  .next (if s.cycle < (s.interval + 1) * 2300 then s else s.boundary budgets points levels)

end Sys2Proof.Machine
end

