-- ==== Sys2Proof/Machine/Pages.lean ====
section
/-! DEFINITION. Page-table walks, shootdowns and the answers of the page service (R282, R286, R360, R361, R403). -/
namespace Sys2Proof.Machine

/-- R282, R360: PAGE_TABLE_WALK: the walk of a miss of a context on a die; a page that is present enters its slice. -/
def execPageTableWalk (die ctx : Nat) (va : Dbl) (s : State) : Host.Outcome State Fault Refusal :=
  .next (translate s die ctx va .read).2

/-- R282: whether a slice entry holds a page of a context's range. -/
def SliceEntry.inRange (e : SliceEntry) (ctx lo len : Nat) : Bool :=
  e.ctx == ctx && decide (e.page * 4096 < lo + len) && decide (lo < e.page * 4096 + 4096)

/-- R282, R385: an access that has passed its slice is still to be performed in the range: an atomic at its engine. -/
def State.rangeBusy (s : State) (ctx lo len : Nat) : Bool :=
  s.eng.atoms.any fun r => r.ctx == ctx && decide (r.va.toNat % 2 ^ 57 / 4096 * 4096 < lo + len)
    && decide (lo < r.va.toNat % 2 ^ 57 / 4096 * 4096 + 4096)

/-- R282, R385: SHOOTDOWN_COMPLETE: no slice of any die holds a page of the range any longer, once the accesses past them have been
performed. -/
def execShootdownComplete (ctx : Nat) (va : Dbl) (len : Nat) (s : State) : Host.Outcome State Fault Refusal :=
  if s.rangeBusy ctx (va.toNat % 2 ^ 57) len then .next s
  else
  let left := s.eng.slices.filter fun e => !e.inRange ctx (va.toNat % 2 ^ 57) len
  let downs := s.eng.downs.filter (· != (ctx, va.toNat % 2 ^ 57, len))
  .next ({ s with eng := { s.eng with slices := left, downs := downs } }.signal 6)

/-- R361, R403: a request answered: its entry is freed, and a refusal is kept for those that waited. -/
def State.answerPage (s : State) (p : PageReq) (refused : Bool) : State :=
  let no := if refused then p.waiters.map fun w => (w, p.page) else []
  let eng := { s.eng with pages := s.eng.pages.filter (· != p), refused := s.eng.refused ++ no }
  ({ s with eng := eng }.signal 7).trace 0x07 p.ctx p.die p.act (p.page * 4096) (if refused then 2 else 1)

/-- R403: an answer stored in the ring that the boot record names for answers, and taken from it; `none` while the ring cannot be reached or
is full. Without a ring the answer comes by itself. -/
def State.takeAnswer (s : State) (tag : Nat) (refused : Bool) : Option State :=
  let ring := (s.cdie s.leader).pageRings.2
  if ring = 0 then some s
  else (ringPutPhys s ring 5 ((List.range 32).map (Config.answerByte tag refused))).map (·.ringPop ring)

/-- R286, R403: PAGE_ANSWER. [log 86 DESIGN CHOICE] -/
def execPageAnswer (tag : Nat) (refused : Bool) (s : State) : Host.Outcome State Fault Refusal :=
  .next (match s.eng.pages.find? fun p => p.tag == tag with
    | none => s
    -- R287: a page that comes in the cycle of the boundary does not stop the drain.
    | some p => match s.takeAnswer tag refused with
      | none => s
      | some s => ((s.drain p.act).answerPage p refused).restoreDrained)

end Sys2Proof.Machine
end

