-- ==== Sys2Proof/Machine/Sync.lean ====
section
/-! DEFINITION. Barriers, events, WAIT and CUE (R151 to R155, R321). -/
namespace Sys2Proof.Machine

/-! ## Barriers -/

/-- The barrier `b` of a context. -/
def Ctx.bar (c : Ctx) (b : BitVec 5) : Barrier := c.bars[b.toNat]'(b.isLt)

/-- A barrier of a context changed. -/
def Ctx.setBar (c : Ctx) (b : BitVec 5) (v : Barrier) : Ctx := { c with bars := c.bars.set b.toNat v b.isLt }

/-- The key under which an act records the phase of its arrival at a barrier of a context. -/
def barKey (ctx : Nat) (b : BitVec 5) : Nat := ctx * 32 + b.toNat

/-- R151: one arrival; the one that brings the count to the participant count advances the phase. -/
def Barrier.arrive (x : Barrier) : Barrier :=
  if x.arrived + 1 = x.count then { x with phase := x.phase + 1, arrived := 0 } else { x with arrived := x.arrived + 1 }

/-- R151: an arrival of the act that is executed. -/
def State.arrive (s : State) (b : BitVec 5) : State :=
  let c := s.cur.ctx
  let ph := (s.curCtx.bar b).phase
  (s.updCtx c fun x => x.setBar b (x.bar b).arrive).updCur fun a => { a with phases := assocSet (barKey c b) ph a.phases }

/-- R151: what the act last recorded at a barrier. [log 34 DEDUCED] -/
def recordedPhase (s : State) (b : BitVec 5) : Option Nat := assoc? (barKey s.cur.ctx b) s.cur.phases

/-- R151: a staged store or a deferred atomic of the act waits for its task to become oldest. -/
def stagedBy (s : State) (id : Nat) : Bool :=
  s.ctxs.any fun c => c.2.tasks.any fun t => t.lines.any (·.act == id) || t.deferred.any (·.act == id)

/-- R151, R149: BAR.ARRIVE past its wait for the oldest task. -/
def barArriveOnce (b : BitVec 5) (s : State) : Did :=
  let x := s.curCtx.bar b
  if x.count = 0 then .trap s 0x12 (b.zeroExtend 64)
  else if recordedPhase s b = some x.phase || accessesPending s s.me || stagedBy s s.me then .wait s
  else .done (s.arrive b) (BitVec.ofNat 64 x.phase)

/-- R376: a replayed BAR.ARRIVE records the phase it recorded. -/
def State.recordPhase (s : State) (b : BitVec 5) (ph : Dbl) : State :=
  s.updCur fun a => { a with phases := assocSet (barKey a.ctx b) ph.toNat a.phases }

/-- R151: BAR.ARRIVE. -/
def execBarArrive (b : BitVec 5) (s : State) : Host.Outcome State Fault Refusal :=
  .next ((whenOldest s fun s => withLog s (fun s v => .done (s.recordPhase b v) v) (barArriveOnce b)).end)

/-- R151: BAR.WAIT. -/
def execBarWait (b : BitVec 5) (s : State) : Host.Outcome State Fault Refusal :=
  let x := s.curCtx.bar b
  .next (if x.count = 0 then s.trap 0x12 (b.zeroExtend 64)
    else if recordedPhase s b = some x.phase then s
    else s.retire)

/-- R152: a barrier of a context configured: phase 0, no arrivals, and no act's arrival recorded. -/
def State.initBar (s : State) (ctx : Nat) (b : BitVec 5) (n : Nat) : State :=
  let s := s.updCtx ctx fun c => c.setBar b { count := n, phase := 0, arrived := 0 }
  { s with acts := s.acts.map fun p => (p.1, { p.2 with phases := assocDel (barKey ctx b) p.2.phases }) }

/-- R152: BAR.INIT. [log 142 DEDUCED] -/
def execBarInit (a : Reg) (b : BitVec 5) (s : State) : Host.Outcome State Fault Refusal :=
  let n := s.g a
  .next ((whenOldest s fun s => withLog s (fun s v => .done s v) fun s =>
    if 256 ≤ n.toNat then .trap s 0x12 n
    else if (s.curCtx.bar b).arrived ≠ 0 then .trap s 0x12 (b.zeroExtend 64)
    else .done (s.initBar s.cur.ctx b n.toNat) 0).end)

/-! ## Events -/

/-- R153: EVT.SIG. [log 35 DEDUCED] -/
def execEvtSig (e : BitVec 4) (s : State) : Host.Outcome State Fault Refusal :=
  .next ((whenOldest s fun s => withLog s (fun s v => .done s v) fun s =>
    if accessesPending s s.me then .wait s else .done (s.setEvent s.cur.ctx e.toNat) 0).end)

/-- R153: an act of lower ACTID waits on the same bit of the same context. -/
def evtTaken (s : State) (e : Nat) : Bool :=
  s.acts.any fun p => decide (p.1 < s.me) && p.2.ctx == s.cur.ctx && p.2.evtw == some e && p.2.life == .running

/-- R153: the bit cleared, and the waiter past its instruction. -/
def State.takeEvent (s : State) (e : BitVec 4) : State :=
  ((s.updCtx s.cur.ctx fun c => { c with ev := c.ev &&& ~~~(BitVec.ofNat 16 (2 ^ e.toNat)) }).updCur fun a =>
    { a with evtw := none }).retire

/-- R153, R304: EVT.WAIT. -/
def execEvtWait (e : BitVec 4) (s : State) : Host.Outcome State Fault Refusal :=
  .next (if speculative s s.cur then s
    else if s.curCtx.ev.getLsbD e.toNat && !(evtTaken s e.toNat) then s.takeEvent e
    else s.updCur fun a => { a with evtw := some e.toNat })

/-- R154: WAIT. -/
def execWait (a : Reg) (s : State) : Host.Outcome State Fault Refusal :=
  let m := (s.g a).extractLsb' 0 16
  .next (if m = 0 || s.curCtx.ev &&& m ≠ 0 then s.retire else s)

/-! ## CUE -/

/-- R155: whether the last cue of an act is pending with its stated onset not reached. -/
def CueWin.replaceable (c : CueWin) (cycle : Nat) : Bool :=
  c.start.isNone && match c.onset with
  | some o => decide (cycle < o)
  | none => true

/-- R155: a further cue: it replaces a pending one, or queues behind it; an empty one adds no window. -/
def addCue (cs : List CueWin) (c : CueWin) (cycle : Nat) : List CueWin :=
  let kept := match cs.getLast? with
    | some l => if l.replaceable cycle then cs.dropLast else cs
    | none => cs
  if c.empty then kept else kept ++ [c]

/-- R155, R321: the cue that CUE places. -/
def cueOf (s : State) (onset len : Dbl) (intensity : Byte) (stroke : Bool) : CueWin :=
  let off := onset.toNat % 2 ^ 32
  { onset := if stroke then none else some (s.cycle + off), off := off, floor := s.interval + 2, start := none,
    len := len.toNat % 2 ^ 16, intensity := intensity, delay := 0 }

/-- R155: CUE. -/
def execCue (a b : Reg) (i : BitVec 8) (e : Bool) (s : State) : Host.Outcome State Fault Refusal :=
  let c := cueOf s (s.g a) (s.g b) i e
  .next (s.updCur fun x => { x with cues := addCue x.cues c s.cycle }).retire

end Sys2Proof.Machine
end

