-- ==== Sys2Proof/Machine/Launch.lean ====
section
/-! DEFINITION. Submission rings, launches and queue resets (R251, R252, R267 to R269, R278, R325, R333 to R341, R368, R389,
R449). -/
namespace Sys2Proof.Machine

/-! ## Reading as an agent of a context (R449) -/

/-- R11, R449: an access of the scheduler for a context; a page that is not present is asked for, and memory that no link leads to is
waited for. The die and
tile that the request names are free values. [log 87 DESIGN CHOICE] -/
def schedAccess (s : State) (ctx : Nat) (va : Dbl) (k : Access) : Got × State :=
  match translateCtl s ctx va k with
  | .ok pa => if s.served pa then (.ok pa, s) else (.wait, s)
  | .fault c a => (.fault c a, s)
  | .miss =>
    if s.pageRefused (.sched ctx) va then (.fault 0x10 va, s.clearRefused (.sched ctx) va)
    else
      let (x, s) := s.free
      match s.postPage (.sched ctx) ctx va k (x % 8) (x / 8 % 320) 512 with
      | some s => (.wait, s)
      | none => (.fault 0x13 va, s)

/-- What a reading of structures comes to. -/
inductive SchedRead (α : Type) where
  | got (v : α) (s : State)
  | wait (s : State)
  | fail (code : Byte) (arg : Dbl) (s : State)

/-- What is read next, with what has been read. -/
def SchedRead.bind {α β : Type} (x : SchedRead α) (f : α → State → SchedRead β) : SchedRead β :=
  match x with
  | .got v s => f v s
  | .wait s => .wait s
  | .fail c a s => .fail c a s

/-- A double of a context's memory; one that crosses a page is translated in both. -/
def readDbl (s : State) (ctx : Nat) (va : Dbl) : SchedRead Dbl :=
  match schedAccess s ctx va .read with
  | (.wait, s) => .wait s
  | (.fault c a, s) => .fail c a s
  | (.ok pa, s) =>
    let k := 4096 - va.toNat % 4096
    if 8 ≤ k then .got (s.mem.dbl pa) s
    else match schedAccess s ctx (va + BitVec.ofNat 64 k) .read with
      | (.wait, s) => .wait s
      | (.fault c a, s) => .fail c a s
      | (.ok pb, s) => .got (BitVec.ofNat 64 (s.mem.readN pa k + 256 ^ k * s.mem.readN pb (8 - k))) s

/-- `n` doubles from a virtual address of a context. -/
def readDbls (ctx : Nat) : Nat → Dbl → List Dbl → State → SchedRead (List Dbl)
  | 0, _, l, s => .got l s
  | n + 1, va, l, s => (readDbl s ctx va).bind fun d s => readDbls ctx n (va + 8) (l ++ [d]) s

/-- One of the doubles read. -/
def dblAt (l : List Dbl) (k : Nat) : Dbl := (l[k]?).getD 0

/-! ## Submission rings (R333, R334) -/

/-- R333: the record at HEAD of a context's ring, with its address, if the ring holds one. -/
def ringRecord (ctx : Nat) (s : State) : SchedRead (Option (Dbl × List Dbl)) :=
  let ring := (s.ctx ctx).sring
  if ring = 0 then .got none s
  else (readDbls ctx 4 ring [] s).bind fun d s =>
    if dblAt d 2 = dblAt d 3 then .got none s
    else
      let va := dblAt d 0 + BitVec.ofNat 64 (64 * ((dblAt d 2).toNat % 2 ^ bits (dblAt d 1) 0 5))
      (readDbls ctx 8 va [] s).bind fun r s => .got (some (va, r)) s

/-- R334: a record that is skipped, with its report. -/
def State.skipRecord (s : State) (ctx : Nat) (va : Dbl) : State := (s.takeRecord ctx).reflect ctx 0x01 0 va va

/-- R424: while everything quiesces no record is taken. The record at HEAD of a ring, of one KIND, given to `f`; while it
cannot be read the ring waits. -/
def takeHead (s : State) (ctx kind : Nat) (f : State → Dbl → List Dbl → State) : State :=
  if s.ctl.sec.quiesced then s
  else match ringRecord ctx s with
  | .got (some (va, r)) s => if bits (dblAt r 0) 0 8 = kind then f s va r else s
  | .got none s => s
  | .wait s => s
  | .fail _ _ s => s

/-- R333, R334, R399: SUBMISSION_DOORBELL: the scheduler looks at a ring, and skips a record of no known KIND. -/
def execSubmissionDoorbell (ctx : Nat) (s : State) : Host.Outcome State Fault Refusal :=
  let s := s.signal 0
  .next (if s.ctl.sec.quiesced then s
    else match ringRecord ctx s with
    | .got (some (va, r)) s =>
      let k := bits (dblAt r 0) 0 8
      if 1 ≤ k && k ≤ 4 then s else s.skipRecord ctx va
    | .got none s => s
    | .wait s => s
    | .fail _ _ s => s)

/-! ## Launch records (R335) -/

/-- R335: the launch that a record states. -/
def launchOf (id ctx : Nat) (r : List Dbl) (node : Option (Nat × Nat)) (stamp : Nat) : Launch :=
  let w := dblAt r 0
  { id := id, ctx := ctx, state := .waiting, image := dblAt r 1, qbind := dblAt r 3, nqb := bits w 8 8, bars := dblAt r 4,
    wing := bits w 16 8, scrb := bits w 24 10, pflim := bits w 34 12, stampb := (dblAt r 5).toNat, reloc := dblAt r 2,
    done := dblAt r 6, stamp := stamp, taken := false, before := none, places := [], awaiting := [], barCounts := [], acts := [],
    count := 0, cancelling := false, cancelAt := none, node := node, queues := [], outcome := (0, 0) }

/-- R334, R335, R449: a launch record with no reserved bit set and a completion record. -/
def launchClean (r : List Dbl) : Bool :=
  bits (dblAt r 0) 46 18 == 0 && dblAt r 7 == 0 && dblAt r 6 != 0 && (dblAt r 6).toNat % 32 == 0

/-- A launch added, waiting. -/
def State.addLaunch (s : State) (l : Launch) : State :=
  let eng := { s.eng with serial := s.eng.serial + 1 }
  let sch := { s.sch with launches := s.sch.launches ++ [l] }
  { s with eng := eng, sch := sch }.launchTo l.id .waiting 0 0

/-- R333: the launch of a ring's record that has not left WAITING. [log 88 DEDUCED] -/
def State.ringWaits (s : State) (ctx : Nat) : Bool :=
  s.sch.launches.any fun l => l.ctx == ctx && l.node.isNone && !l.taken && l.state == .waiting

/-- R333, R338: LAUNCH_RECORD: a launch begins to wait; its record holds the ring. -/
def execLaunchRecord (ctx : Nat) (s : State) : Host.Outcome State Fault Refusal :=
  .next (takeHead s ctx 1 fun s va r =>
    if s.ringWaits ctx then s
    else if !(launchClean r) then s.skipRecord ctx va
    else s.addLaunch (launchOf s.eng.serial ctx r none 0))

/-! ## What a launch needs (R449) -/

/-- R449: the byte offset of the first field outside its range. A graph node's launch has no stamp base (R343). [log 89 DEDUCED, 91 DEDUCED] -/
def launchFieldFault (l : Launch) : Option Nat :=
  if 64 < l.nqb then some 1
  else if l.wing ≠ 0 && (l.wing < 8 || 128 < l.wing) then some 2
  else if 512 < l.scrb then some 3
  else if 1000 < l.pflim then some 4
  else if l.qbind.toNat % 16 ≠ 0 then some 0x18
  else if l.reloc.toNat % 8 ≠ 0 then some 0x10
  else if l.bars.toNat % 8 ≠ 0 then some 0x20
  else if l.node.isSome && l.stampb ≠ 0 then some 0x28
  else none

/-- R337: ARG of a load error. -/
def loadArg (tile scene vreg : Nat) : Dbl := BitVec.ofNat 64 (tile + scene * 2 ^ 12 + vreg * 2 ^ 14)

/-- The structures that a launch record names: the image's physical address and pages, the relocation table, the queue bindings with
their record addresses, and the barrier counts. -/
structure Needs where
  pa : Nat
  pages : List Nat
  relocs : List Dbl
  binds : List (Dbl × Dbl)
  bars : List Nat
deriving DecidableEq, Repr

/-- R254: an address is the base of an image admitted to a context. -/
def admittedAt (s : State) (ctx pa : Nat) : Bool := s.sch.admitted.any fun x => x.ctx == ctx && x.pa == pa

/-- R245: the virtual regions of an image or script. -/
def regionsOf (m : Mem) (pa : Nat) : Nat := if isScript m pa then scNreg m pa else 1

/-- Doubles by twos. -/
def pairs : List Dbl → List (Dbl × Dbl)
  | a :: b :: l => (a, b) :: pairs l
  | _ => []

/-- R449: `n` more pages of a context's addresses from `va` on, with those found before. -/
def readPages (ctx : Nat) : Nat → Dbl → List Nat → State → SchedRead (List Nat)
  | 0, _, l, s => .got l s
  | n + 1, va, l, s =>
    match schedAccess s ctx va .read with
    | (.ok pa, s) => readPages ctx n (va + 4096) (l ++ [pa / 4096]) s
    | (.wait, s) => .wait s
    | (.fault c a, s) => .fail c a s

/-- R254, R449: the pages of the image that a launch record names, of which the first byte stands at `pa`: those of an admitted image are
known, and of another each is read through the context's translation, as far as its header says. -/
def readImage (ctx : Nat) (va : Dbl) (pa : Nat) (s : State) : SchedRead (List Nat) :=
  match s.sch.admitted.find? fun x => x.ctx == ctx && x.pa == pa with
  | some x => .got x.pages s
  | none => (readPages ctx (pageCount va 64) va [] s).bind fun ps s =>
      readPages ctx (pageCount va (coveredLen (s.view pa ps) pa + 1852)) va [] s

/-- The memory with the image of a launch in one piece. -/
def Needs.mem (n : Needs) (s : State) : Mem := s.view n.pa n.pages

/-- R449: the structures that a launch record names, read. -/
def readNeeds (s : State) (l : Launch) : SchedRead Needs :=
  match schedAccess s l.ctx l.image .read with
  | (.wait, s) => .wait s
  | (.fault c a, s) => .fail c a s
  | (.ok pa, s) =>
    (readImage l.ctx l.image pa s).bind fun pages s =>
    let m := s.view pa pages
    let n := if l.reloc = 0 || !(isScript m pa) then 0 else scNreg m pa
    (readDbls l.ctx n l.reloc [] s).bind fun relocs s =>
    (readDbls l.ctx (2 * l.nqb) l.qbind [] s).bind fun binds s =>
    (readDbls l.ctx (if l.bars = 0 then 0 else 4) l.bars [] s).bind fun bars s =>
    .got { pa := pa, pages := pages, relocs := relocs, binds := pairs binds,
           bars := bars.flatMap fun d => (List.range 8).map fun k => bits d (8 * k) 8 } s

/-! ## Placement (R251, R252) -/

/-- R246: W, H, EDGE, BSEL and ENTRY of a virtual region of a script. -/
def vregW (m : Mem) (pa v : Nat) : Nat := bits (m.dbl (regionEntry m pa v)) 8 5
def vregH (m : Mem) (pa v : Nat) : Nat := bits (m.dbl (regionEntry m pa v)) 16 5
def vregEdge (m : Mem) (pa v : Nat) : Nat := bits (m.dbl (regionEntry m pa v)) 24 4
def vregBsel (m : Mem) (pa v : Nat) : Bool := (m.dbl (regionEntry m pa v)).getLsbD 30
def vregEntry (m : Mem) (pa v : Nat) : Nat := m.readN (regionEntry m pa v + 8) 8

/-- R251: DIE, X0, Y0 and FIX of an entry of a relocation table. -/
def relocDie (d : Dbl) : Nat := bits d 54 4
def relocX (d : Dbl) : Nat := bits d 50 4
def relocY (d : Dbl) : Nat := bits d 46 4
def relocFix (d : Dbl) : Bool := d.getLsbD 45

/-- R246: a rectangle touches the die edges that a region requires: bit 3 N, 2 E, 1 S, 0 W. -/
def touches (edge x0 y0 w h : Nat) : Bool :=
  (!edge.testBit 3 || y0 == 0) && (!edge.testBit 2 || x0 + w == 16) && (!edge.testBit 1 || y0 + h == 16)
    && (!edge.testBit 0 || x0 == 0)

/-- R251: an entry of a relocation table that is refused on its own: a wrong VREG or DIE, a reserved bit, a rectangle that
leaves the die, or an edge left untouched. -/
def relocBad (m : Mem) (pa v : Nat) (d : Dbl) : Bool :=
  bits d 58 6 != v || (7 < relocDie d && relocDie d != 15) || bits d 0 45 != 0
    || (relocFix d && (16 < relocX d + vregW m pa v || 16 < relocY d + vregH m pa v
      || !(touches (vregEdge m pa v) (relocX d) (relocY d) (vregW m pa v) (vregH m pa v))))

/-- R251: two fixed regions of a relocation table that share a tile. -/
def relocsMeet (m : Mem) (pa v u : Nat) (d e : Dbl) : Bool :=
  v != u && relocFix d && relocFix e && relocDie d == relocDie e && relocDie d != 15
    && rectsMeet (relocX d, relocY d, vregW m pa v, vregH m pa v) (relocX e, relocY e, vregW m pa u, vregH m pa u)

/-- R251: the first virtual region for which a relocation table is refused. -/
def relocFault (m : Mem) (n : Needs) : Option Nat :=
  (List.range n.relocs.length).find? fun v => relocBad m n.pa v (dblAt n.relocs v)
    || (List.range v).any fun u => relocsMeet m n.pa v u (dblAt n.relocs v) (dblAt n.relocs u)

/-- The rectangle of a placement. -/
def placeRect (p : Placement) : Nat × Nat × Nat × Nat := (p.x0, p.y0, p.w, p.h)

/-- R338, R356: a rectangle of a die that no launch, act of the same virtual device or child context holds. -/
def rectIdle (s : State) (ctx die : Nat) (r : Nat × Nat × Nat × Nat) : Bool :=
  s.notMoved ctx die r
  && s.pendingHere.all (fun q => q.die != die || !(rectsMeet r (placeRect q)))
  && s.acts.all fun a => a.2.life == .free || a.2.region.die != die || !(rectsMeet r a.2.region.rect)
      || (!a.2.present && s.rootOf a.2.ctx != s.rootOf ctx)

/-- R338, R356: the rectangle of a placement is held by no other. -/
def rectFree (s : State) (ctx : Nat) (p : Placement) : Bool := rectIdle s ctx p.die (placeRect p)

/-- R11: the physical address of a placement's image, where it is admitted and a link leads to it. -/
def placePa (s : State) (ctx : Nat) (p : Placement) : Option Nat :=
  match translateCtl s ctx p.image .read with
  | .ok pa => if s.served pa && s.sch.admitted.any fun x => x.ctx == ctx && x.pa == pa && !x.script then some pa else none
  | _ => none

/-- R248, R252: the ends of a channel's route, each as its region, its virtual tile and the tile that carries it. -/
def routeEnds (m : Mem) (pa : Nat) (c : ChannelRoute) : List (Nat × Nat × Nat) :=
  let l := m.dbl (pa + m.readN (pa + 0x18) 8 + 8 * c.link)
  [(bits l 58 6, bits l 48 10, c.src), (bits l 40 6, bits l 30 10, c.dst)]

/-- R248, R252: the pairs of a virtual tile and the tile that carries it which the channels of a launch name for region `v`. -/
def channelPairs (m : Mem) (pa v : Nat) (ps : List Placement) : List (Nat × Nat) :=
  ((ps.flatMap fun p => p.channels.flatMap (routeEnds m pa)).filter (·.1 == v)).map (·.2)

/-- R246, R447: the page-sized pieces of `n` bytes at a virtual address of a context stand there, readable in the way of `k`, with the
bytes of the script at offset `off`. -/
def spanMapped (s : State) (ctx : Nat) (m : Mem) (k : Access) : Nat → Dbl → Nat → Nat → Bool
  | 0, _, _, _ => true
  | f + 1, va, off, n =>
    let c := Nat.min n (4096 - va.toNat % 4096)
    n == 0 || ((match translateCtl s ctx va k with
      | .ok pa => s.mem.readList pa c == m.readList off c
      | _ => false) && spanMapped s ctx m k f (va + BitVec.ofNat 64 c) (off + c) (n - c))

/-- R246, R325, R447: the act's code and data are mapped. [log 86 DESIGN CHOICE] -/
def spansMapped (s : State) (ctx : Nat) (m : Mem) (pa v : Nat) (p : Placement) : Bool :=
  ((codeSpan m pa v).all fun q => spanMapped s ctx m .fetch (pageCount p.entry (q.2 - q.1)) p.entry (pa + q.1) (q.2 - q.1))
    && (dataSpan m pa v).all fun q => spanMapped s ctx m .read (pageCount p.data (q.2 - q.1)) p.data (pa + q.1) (q.2 - q.1)

/-- R246, R251, R252: a placement carries virtual region `v` of a script, on the die and at the place that the table names, with the
tiles that the channels of the places `ps` name. -/
def carriesRegion (s : State) (ctx : Nat) (n : Needs) (ps : List Placement) (v pa : Nat) (p : Placement) : Bool :=
  let m := n.mem s
  s.realises m n.pa v pa (channelPairs m n.pa v ps) && p.bsel == vregBsel m n.pa v
    && p.entry.toNat % 4096 == vregEntry m n.pa v % 4096 && spansMapped s ctx m n.pa v p
    && touches (vregEdge m n.pa v) p.x0 p.y0 p.w p.h
    && match n.relocs[v]? with
      | none => true
      | some d => (relocDie d == 15 || relocDie d == p.die) && (!relocFix d || (relocX d == p.x0 && relocY d == p.y0))

/-- R68, R69: a way from a tile crosses a quadrant border or a link between dies. -/
def leavesQuadrant (die tile : Nat) (ts : List TileId) : Bool := ts.any fun t => t.die != die || quadrant t.tile != quadrant tile

/-- R58, R68, R69, R249, R253, R366: the way of one channel for the places `ps`: it leads from the tile that carries the record's producer
to the one that carries its consumer, through tiles of the partition that the repair map does not list, its h is one that the link's
timing class allows, and it leaves the quadrant of its producer only with 4 slots. -/
def routeFits (s : State) (ctx pa : Nat) (m : Mem) (ps : List Placement) (c : ChannelRoute) : Bool :=
  let l := m.dbl (pa + m.readN (pa + 0x18) 8 + 8 * c.link)
  match ps[bits l 58 6]?, ps[bits l 40 6]? with
  | some p, some q =>
    let src : TileId := { die := p.die, tile := c.src }
    match pathTiles c.path src with
    | none => false
    | some ts =>
      (placePa s ctx p).isSome && (placePa s ctx q).isSome && ts.getLast? == some { die := q.die, tile := c.dst }
        && s.ownTag ctx (src :: ts) && !(ts.any s.listed) && c.path.all (fun x => x.1 < 4 && x.2 < 4)
        && classMet l (s.pathHops c.path src) && (4 ≤ bits l 24 4 || !(leavesQuadrant src.die src.tile ts))
  | _, _ => false

/-- R57, R66: the connections of a channel with the output that feeds it. -/
def routeWires (m : Mem) (pa : Nat) (p : Placement) (c : ChannelRoute) : List ((Wire × Nat) × TileId × Nat) :=
  let l := m.dbl (pa + m.readN (pa + 0x18) 8 + 8 * c.link)
  let src : TileId := { die := p.die, tile := c.src }
  (pathWires c.path src).map fun w => (w, src, bits l 46 2)

/-- R57: no circuit number of a connection serves two outputs, among the channels of a launch and those that stand. -/
def wiresApart (s : State) (m : Mem) (pa : Nat) (ps : List Placement) : Bool :=
  let new := ps.flatMap fun p => p.channels.flatMap (routeWires m pa p)
  let old := s.fab.channels.flatMap fun c => (pathWires c.path c.link.src).map fun w => (w, c.link.src, c.link.out)
  new.all fun x => (new ++ old).all fun y => x.1 != y.1 || x.2 == y.2

/-- R248, R252, R253: the routes of the channels that leave virtual region `v`: one for each link record, with one tile for each virtual
tile. [log 117 DEDUCED] -/
def routesFit (s : State) (ctx : Nat) (n : Needs) (ps : List Placement) (v : Nat) (p : Placement) : Bool :=
  let m := n.mem s
  let want := if isScript m n.pa then (channelLinks m n.pa).filter fun l => bits l.2 58 6 == v else []
  let ends := ps.flatMap fun p => p.channels.flatMap (routeEnds m n.pa)
  p.channels.map (·.link) == want.map (·.1) && p.channels.all (routeFits s ctx n.pa m ps)
    && (ends.all fun x => ends.all fun y => x.1 != y.1 || (x.2.1 == y.2.1) == (x.2.2 == y.2.2))
    && wiresApart s m n.pa ps

/-- R366: the dies beside `d` that a partition's tiles lead to. -/
def State.dieSteps (s : State) (part d : Nat) : List Nat :=
  (List.range 4).filterMap fun side => match dieBeside d side with
    | none => none
    | some e => if (List.range 16).any fun k => (s.tile { die := d, tile := portIndex side k }).tag == some part
          && (s.tile { die := e, tile := portIndex ((side + 2) % 4) k }).tag == some part then some e else none

/-- R251, R353: the dies on which a virtual region may be placed: the one that the relocation table names, or those on which the context
holds a rectangle. -/
def regionDies (s : State) (ctx : Nat) (relocs : List Dbl) (v : Nat) : List Nat :=
  let free := (List.range 8).filter fun d => (rectOf (s.ctx ctx) d).isSome
  match relocs[v]? with
  | some d => if relocDie d = 15 then free else [relocDie d]
  | none => free

/-- R366: the first virtual region with a channel that no way through the partition's tiles carries, on whichever dies its ends are placed. -/
def unroutable (s : State) (ctx : Nat) (n : Needs) (m : Mem) : Option Nat :=
  let part := (s.ctx ctx).part
  ((channelLinks m n.pa).find? fun l =>
    !((regionDies s ctx n.relocs (bits l.2 58 6)).any fun p =>
      (regionDies s ctx n.relocs (bits l.2 40 6)).any fun q => (closure (s.dieSteps part) 8 [p]).contains q)).map fun l => bits l.2 58 6

/-- R251, R252, R325, R366: whether the scheduler may place virtual region `v` so, on tiles of the context's partition. [log 92 DEDUCED] -/
def placeOk (s : State) (l : Launch) (n : Needs) (ps : List Placement) (v : Nat) (p : Placement) : Bool :=
  decide (p.die < 8) && decide (p.slot < 4) && p.entry.toNat % 4 == 0 && p.data.toNat % 4096 == 0
  && (match placePa s l.ctx p with
    | none => false
    | some pa =>
      let r := imRegion (s.mem.dbl pa)
      r.die == p.die && r.rect == placeRect p
        && (if isScript (n.mem s) n.pa then carriesRegion s l.ctx n ps v pa p else pa == n.pa))
  && s.ownTag l.ctx (placeRegion p).tiles
  && (match rectOf (s.ctx l.ctx) p.die with
    | some q => rectWithin (placeRect p) q
    | none => false)
  && rectFree s l.ctx p && (s.act (placeAct p)).life == .free && !(s.pendingPlaces.any fun q => placeAct q == placeAct p)

/-- R278: an initial tensor entry that TID.DEF would take. -/
def tensorEntryOk (t : Nat × List Byte) : Bool :=
  t.1 < 256 && t.2.length == 64 && tensorOk fun k => BitVec.ofNat 64 (leNat ((t.2.drop (8 * k)).take 8))

/-- R278: the first virtual region with an initial tensor entry that would fail. -/
def tensorFault (ps : List Placement) : Option Nat :=
  (List.range ps.length).find? fun v => (ps[v]?).any fun p => !(p.tensors.all tensorEntryOk)

/-- The places of a launch, two by two: no shared tile, no shared act context. -/
def apart : List Placement → Bool
  | [] => true
  | p :: l => (l.all fun q => p.die != q.die || (!(rectsMeet (placeRect p) (placeRect q)) && placeAct p != placeAct q)) && apart l

/-! ## Banks (R267 to R269, R389, R449) -/

/-- R268: the wing banks that a launch states. -/
def wingCount (l : Launch) : Nat := if l.wing = 0 then 32 else l.wing

/-- R449: the dies of a list of places. -/
def placeDies (ps : List Placement) : List Nat := (List.range 8).filter fun d => ps.any (·.die == d)

/-- R449: the first die on which a launch's banks exceed all that there are. -/
def bankExcess (s : State) (l : Launch) (ps : List Placement) : Option Nat :=
  (placeDies ps).find? fun d => decide ((s.bankPool l.ctx d).length < l.scrb + wingCount l)

/-- R267, R449: a bank that a launch may take. -/
def bankFree (s : State) (ctx die b : Nat) : Bool :=
  (s.bankPool ctx die).contains b && s.bankLoose ctx (bankKey die b)

/-- A list of banks in ascending order. -/
def ascending : List Nat → Bool
  | a :: b :: l => decide (a < b) && ascending (b :: l)
  | _ => true

/-- R268: the wing banks that a domain holds on a die, with those that a launch of it which still places has chosen. -/
def wingsHeld (s : State) (ctx die : Nat) : List Nat :=
  let here := (s.fab.banks.filter fun b => b.1 / 512 == die && b.2.use == .wings ctx).map fun b => b.1 % 512
  let soon := (s.sch.launches.filter fun l => l.ctx == ctx && (l.state == .admitting || l.state == .placing)).flatMap fun l =>
    (l.places.filter (·.die == die)).flatMap (·.wings)
  (here ++ soon).eraseDups

/-- R338, R449: too few banks are free on some die of a launch's places. -/
def banksShort (s : State) (l : Launch) (ps : List Placement) : Bool :=
  (placeDies ps).any fun d =>
    decide (((s.bankPool l.ctx d).filter (bankFree s l.ctx d)).length < l.scrb + (wingCount l - (wingsHeld s l.ctx d).length))

/-- R267 to R269, R389: the banks chosen for a launch's regions: on each die one list of SCRB banks, and as many wing banks
as the domain lacks there. [log 93 DEDUCED] -/
def banksOk (s : State) (l : Launch) (ps : List Placement) : Bool :=
  ps.all fun p =>
    ps.all (fun q => q.die != p.die || (q.banks == p.banks && q.wings == p.wings))
    && p.banks.length == l.scrb && p.wings.length == wingCount l - (wingsHeld s l.ctx p.die).length
    && ascending p.banks && ascending p.wings && p.banks.all fun b => !(p.wings.contains b)
    && (p.banks ++ p.wings).all (bankFree s l.ctx p.die)

/-! ## Queue bindings (R336, R339) -/

/-- What a check comes to. -/
inductive Check where
  | pass (s : State)
  | wait
  | fail (code : Byte) (arg : Dbl) (s : State)

/-- R336: the server that a binding names for a placed region. -/
def bindServer (w : Dbl) (p : Placement) : Option Server :=
  match bits w 8 2 with
  | 0 =>
    let side := bits w 24 6 / 16
    let port := 16 * side + (if side % 2 = 0 then p.x0 else p.y0) + bits w 24 6 % 16
    if port < 16 * side + 16 && (placeRegion p).holds { die := p.die, tile := 256 + port } then some (.agen p.die port)
    else none
  | 1 => some (.copy p.die)
  | 2 => some (.coll p.die)
  | _ => none

/-- R336, R339, R449: one binding of launch `id`, whose entry stands at `va`. [log 90 DEDUCED] -/
def State.bindOne (s : State) (l : Launch) (ps : List Placement) (va : Dbl) (b : Dbl × Dbl) : Check :=
  let n := bits b.1 0 6
  let q : QueueId := .ctx l.ctx n
  let x := s.queue q
  if b.1 &&& ~~~(0x3F3F033F : Dbl) ≠ 0 || b.2.toNat % 32 ≠ 0 then .fail 0x30 va s
  else match (ps[bits b.1 16 6]?).bind (bindServer b.1) with
  | none => .fail 0x30 va s
  | some sv =>
    if !((s.ctx l.ctx).qmask.getLsbD n) then .fail 0x12 (BitVec.ofNat 64 n) s
    else if x.dropped then .wait
    else match x.server with
    | some old => if old = sv && x.recBound && x.recAddr = b.2 then .pass s else .fail 0x12 (BitVec.ofNat 64 n) s
    | none =>
      let s := s.updQueue q fun x => { x with server := some sv, recAddr := b.2, recBound := true }
      .pass (s.updLaunch l.id fun l => { l with queues := l.queues ++ [q] })

/-- R336: the bindings of a launch, in order. -/
def bindAll (l : Launch) (ps : List Placement) : Dbl → List (Dbl × Dbl) → State → Check
  | _, [], s => .pass s
  | va, b :: bs, s =>
    match s.bindOne l ps va b with
    | .pass s => bindAll l ps (va + 16) bs s
    | .wait => .wait
    | .fail c a s => .fail c a s

/-! ## Admission (R337 steps 1 and 2) -/

/-- R368: the state with the floor of a launch's context active, unless the floor sum would then be too high. -/
def activateFloor (s : State) (ctx : Nat) : Option State :=
  if s.floorActive ctx then some s
  else
    let t := s.updCtx ctx fun c => { c with floorSince := some s.cycle }
    if (s.ctx ctx).floor ≠ 0 && Nat.min 510000 (s.ctl.power.cap - 90000) < t.floorSum then none else some t

/-- R337 step 2: the launch is stamped; a graph node's launch has the node's stamp, which is reserved already. [log 94 DEDUCED] -/
def State.stampLaunch (s : State) (l : Launch) : Check :=
  let c := s.ctx l.ctx
  if l.node.isSome then .pass s
  else if l.stampb ≠ 0 && l.stampb ≤ c.highest then .fail 0x22 (BitVec.ofNat 64 l.stampb) s
  else
    let n := if l.stampb = 0 then c.highest + 1 else l.stampb
    let s := s.updCtx l.ctx fun c => { c with highest := n, reserved := c.reserved ++ [n] }
    .pass (s.updLaunch l.id fun x => { x with stamp := n, before := some c.highest })

/-- R337 step 3: the tiles that the blocks of an image name. -/
def imageTiles (m : Mem) (die pa : Nat) : List TileId :=
  ((imageBlocks m pa).map fun a => ({ die := die, tile := hdTile (m.dbl a) } : TileId)).eraseDups

/-- R337 step 4: the tiles that have to acknowledge. -/
def placeTiles (s : State) (ctx : Nat) (ps : List Placement) : List TileId :=
  ps.flatMap fun p => match placePa s ctx p with
    | some pa => imageTiles (s.imageMem pa) p.die pa
    | none => []

/-- A launch ends while its record holds its ring, or while its node waits. -/
def State.failWaiting (s : State) (l : Launch) (code : Byte) (arg : Dbl) : State :=
  ((s.takeLaunch l).launchTo l.id .admitting 0 0).endLaunch l.id .failed code arg

/-- R449, R152: the first barrier of the table at which arrivals are pending. -/
def barBusy (s : State) (ctx : Nat) (bars : List Nat) : Option Nat :=
  (List.range 32).find? fun b => (bars[b]?).getD 0 != 0 && match (s.ctx ctx).bars[b]? with
    | some x => x.arrived != 0
    | none => false

/-- R337 step 1, past the placement: queues, barriers, and then the stamp of step 2. -/
def State.admitPlaced (s : State) (l : Launch) (n : Needs) (ps : List Placement) : Check :=
  match bindAll l ps l.qbind n.binds s with
  | .wait => .wait
  | .fail c a s => .fail c a s
  | .pass s =>
    match barBusy s l.ctx n.bars with
    | some b => .fail 0x12 (BitVec.ofNat 64 b) s
    | none => s.stampLaunch l

/-- R337, R338: a launch for which all that it needs is free passes from WAITING to PLACING, or fails; `none` while a
queue that it binds is being reset. -/
def State.admitLaunch (s : State) (l : Launch) (n : Needs) (ps : List Placement) : Option State :=
  let t := (s.takeLaunch l).launchTo l.id .admitting 0 0
  let ps' := ps.map fun p => { p with wings := wingsHeld s l.ctx p.die ++ p.wings }
  match t.admitPlaced l n ps with
  | .wait => none
  | .fail c a t => some (t.endLaunch l.id .failed c a)
  | .pass t =>
    some ((t.updLaunch l.id fun x => { x with places := ps', awaiting := placeTiles t l.ctx ps, barCounts := n.bars }).launchTo
      l.id .placing 0 0)

/-- R254: the physical addresses of the images that a launch's places name. -/
def placeImages (s : State) (ctx : Nat) (ps : List Placement) : List Nat :=
  ps.filterMap fun p => match translateCtl s ctx p.image .read with
    | .ok pa => some pa
    | _ => none

/-- R254, R337 step 1: the image of a launch admitted unless it is already: a staging image as software presents it, a script with the
images that the translator has emitted from it for the places `ps`. A script for which there is no place is one that the translator
refuses (R249, R252). The load error and its ARG, and the state in which the image is admitted. [log 116 DEDUCED] -/
def State.presentLaunch (s : State) (l : Launch) (n : Needs) (ps : List Placement) : Option (Byte × Nat) × State :=
  let known := admittedAt s l.ctx n.pa
  let m := n.mem s
  match tensorFault ps with
  | some v => (some (0x30, 0xFFF + v * 2 ^ 14), s)
  | none =>
  -- R399: an image that is not admitted is presented.
  let s := if known then s else s.signal 4
  if !isScript m n.pa then
    if known then (none, s)
    else match s.checkImage n.pages n.pa [] with
      | (none, s) => (none, s.admitImage l.ctx l.image n.pages n.pa [])
      | (e, s) => (e, s)
  else
    match if known then (none, s) else s.checkFront m n.pa with
    | (some e, s) => (some e, s)
    | (none, s) =>
      let imgs := placeImages s l.ctx ps
      match (relocFault m n).or (unroutable s l.ctx n m) with
      | some v => (some (0x30, 0xFFF + v * 2 ^ 14), s)
      | none =>
        if ps = [] then (some (0x30, 0xFFF), s)
        else if imgs.all fun a => admittedAt s l.ctx a then (none, if known then s else s.admitImage l.ctx l.image n.pages n.pa imgs)
        else match emittedError s m n.pa imgs 0 imgs with
          | some e => (some e, s)
          | none => (none, s.admitImage l.ctx l.image n.pages n.pa imgs)

/-- R269, R449: the scheduler's choice of places and banks taken; one that may not be made leaves the launch waiting. -/
def State.placeLaunch (s : State) (l : Launch) (n : Needs) (ps : List Placement) : Option State :=
  if ps.length ≠ regionsOf (n.mem s) n.pa || !((List.range ps.length).all fun v => match ps[v]? with
      | some p => placeOk s l n ps v p && routesFit s l.ctx n ps v p
      | none => false) || !(apart ps) then none
  else match bankExcess s l ps with
  | some d => some (s.failWaiting l 0x12 (BitVec.ofNat 64 d))
  | none =>
    if banksOk s l ps then
      -- R449: PFLIM is at most the context's.
      let lim := if l.pflim = 0 then 20 else l.pflim
      let t := ((activateFloor s l.ctx).getD s).updLaunch l.id fun x => { x with pflim := Nat.min lim (s.ctx l.ctx).pflim }
      t.admitLaunch l n ps
    else none

/-- R338: nothing is held of the rectangles of a context. -/
def allIdle (s : State) (ctx : Nat) : Bool :=
  (List.range 8).all fun d => match rectOf (s.ctx ctx) d with
    | some r => rectIdle s ctx d r
    | none => true

/-- R338, R449: what a launch would take is free: the rectangles of its places, or that of a staging image, its queues and its banks. A
script for which there is no place waits while anything that might make room is held. -/
def needsFree (s : State) (l : Launch) (n : Needs) (ps : List Placement) : Bool :=
  let m := n.mem s
  let r := imRegion (m.dbl n.pa)
  ps.all (rectFree s l.ctx)
  && (n.binds.all fun b => !(s.queue (.ctx l.ctx (bits b.1 0 6))).dropped)
  && ((bankExcess s l ps).isSome || !(banksShort s l ps))
  && (ps != [] || (if isScript m n.pa then allIdle s l.ctx else !imageHeaderOk m n.pa s.rmap ||
    (s.ownTag l.ctx r.tiles && s.pendingHere.all (fun q => q.die != r.die || !(rectsMeet r.rect (placeRect q)))
      && s.acts.all fun a => !a.2.present || a.2.region.die != r.die || !(rectsMeet r.rect a.2.region.rect))))

/-- R337 step 1, R338: the record's fields and the structures it names, and, once its rectangles are free, the performance floor, the
image, and then the places. -/
def State.tryAdmit (s : State) (l : Launch) (ps : List Placement) : State :=
  match launchFieldFault l with
  | some off => s.failWaiting l 0x30 (BitVec.ofNat 64 off)
  | none =>
    match readNeeds s l with
    | .wait s => s
    | .fail c a s => s.failWaiting l c a
    | .got n s =>
      if !(needsFree s l n ps) then s
      else if (activateFloor s l.ctx).isNone then (s.count l.ctx 0x60 1).failWaiting l 0x41 (BitVec.ofNat 64 (s.ctx l.ctx).floor)
      else match s.presentLaunch l n ps with
      | (some (c, a), t) => t.failWaiting l c (BitVec.ofNat 64 a)
      | (none, t) => (t.placeLaunch l n ps).getD s

/-- The shapes of the regions of a launch's image, where its header can be read. -/
def launchShape (s : State) (l : Launch) : Option (List (Nat × Nat)) :=
  match translateCtl s l.ctx l.image .read with
  | .ok pa =>
    let m := s.imageMem pa
    some (if isScript m pa then (List.range (scNreg m pa)).map fun v => (vregW m pa v, vregH m pa v)
      else [((imRegion (m.dbl pa)).w, (imRegion (m.dbl pa)).h)])
  | _ => none

/-- R251, R345: a launch that waits could stand on a place: the table of its script leaves a region of that shape free to stand there, or
its image is laid out for it, and it does not wait for banks there. -/
def couldTake (s : State) (k : Launch) (p : Placement) : Bool :=
  match readNeeds s k with
  | .got n _ =>
    let m := n.mem s
    !(banksShort s k [p]) && (if isScript m n.pa then
      (List.range (scNreg m n.pa)).any fun v => vregW m n.pa v == p.w && vregH m n.pa v == p.h && match n.relocs[v]? with
        | none => true
        | some d => (relocDie d == 15 || relocDie d == p.die) && (!relocFix d || (relocX d == p.x0 && relocY d == p.y0))
      else
        let r := imRegion (m.dbl n.pa)
        r.die == p.die && r.rect == placeRect p)
  | _ => false

/-- R345: of a context's launch nodes that wait for regions of one shape and could stand on the same place, this has the lowest stamp. -/
def firstOfShape (s : State) (l : Launch) (ps : List Placement) : Bool :=
  l.node.isNone || s.sch.launches.all fun k =>
    k.id == l.id || k.ctx != l.ctx || k.node.isNone || k.state != .waiting || decide (l.stamp ≤ k.stamp)
      || launchShape s k != launchShape s l || !(ps.any (couldTake s k))

/-- R350: whether a launch's context has the turn for its rectangles: at −P it is given nothing, and of the contexts of its virtual device
with a launch that waits for the same tiles the largest balance goes first. -/
def rectTurn (s : State) (l : Launch) (ps : List Placement) : Bool :=
  let c := s.ctx l.ctx
  c.depth ≤ 1 || (decide (-(c.portion : Int) < c.balance) && s.sch.launches.all fun k =>
    let c' := s.ctx k.ctx
    k.ctx == l.ctx || k.state != .waiting || c'.depth ≤ 1 || decide (c'.balance ≤ -(c'.portion : Int)) || s.rootOf k.ctx != s.rootOf l.ctx
      || ps.all (fun p => match rectOf c' p.die with
        | some q => !(rectsMeet (placeRect p) q)
        | none => true)
      || decide (c'.balance < c.balance) || (c'.balance == c.balance && decide (c.id ≤ c'.id)))

/-- R337, R338: LAUNCH_ADMISSION. -/
def execLaunchAdmission (launch : Nat) (places : List Placement) (s : State) : Host.Outcome State Fault Refusal :=
  .next (match s.launch? launch with
    | none => s
    | some l =>
      if l.state ≠ .waiting || s.ctl.sec.quiesced || !(s.deviceRuns l.ctx) || !(firstOfShape s l places) || !(rectTurn s l places) then s
      else s.tryAdmit l places)

/-! ## Acknowledgements and set-up (R337 steps 3 to 6) -/

/-- R267 to R269: the banks of a placement granted. -/
def State.grantBanks (s : State) (ctx : Nat) (p : Placement) : State :=
  let s := p.banks.foldl (fun s b => s.takeBank (bankKey p.die b) (.window ctx)) s
  p.wings.foldl (fun s b => s.takeBank (bankKey p.die b) (.wings ctx)) s

/-- R278: the initial tensor entries of a placement loaded. -/
def State.loadTensors (s : State) (ctx : Nat) (p : Placement) : State :=
  p.tensors.foldl (fun s t =>
    s.setTid ctx t.1 (TensorEntry.ofWords fun k => BitVec.ofNat 64 (leNat ((t.2.drop (8 * k)).take 8)))) s

/-- The scenes that an image defines. -/
def imageScenes (m : Mem) (pa : Nat) : List Nat :=
  (List.range 4).filter fun k => (imageBlocks m pa).any fun a => hdScn (m.dbl a) == k

/-- R325: the region of a launched act: every scene of its image LOADED, scene 0 in force. -/
def launchRegion (p : Placement) (scenes : List Nat) : RegionSt :=
  { placeRegion p with
    slots := Vector.ofFn fun k : Fin 4 =>
      { st := if k.val = 0 then .inForce else if scenes.contains k.val then .loaded else .empty,
        image := p.image, ends := 0, error := none, job := none } }

/-- R325: the act of virtual region `v` of a launch. -/
def launchAct (l : Launch) (v : Nat) (p : Placement) (scenes : List Nat) : Act :=
  { Act.empty (placeAct p) with
    life := .running, ctx := l.ctx, pflim := l.pflim, launch := some l.id, vreg := v, window := p.banks.map (bankKey p.die ·),
    region := launchRegion p scenes,
    regs := ({ Regs.zero with acpc := p.entry }).writeG 1 p.data }

/-- R325: the open gates of a launched region: its address-generator port tiles. -/
def State.agenGates (s : State) (id : Nat) : Dbl :=
  ((s.ownTiles id).filter fun t => 256 ≤ t.tile && (List.range 4).any fun k => match s.cfg t k with
    | some c => c.role == 3
    | none => false).foldl (fun m t => m ||| BitVec.ofNat 64 (2 ^ (t.tile - 256))) 0

/-- R58, R204, R325: the circuits of a region begin with all their credits, and its port queues at 0: what an earlier region has left on
its tiles is gone. -/
def State.freshCircuits (s : State) (r : RegionSt) : State :=
  let s := r.tiles.foldl (fun s t =>
    if (s.tile t).inbuf.all (· == []) && (s.tile t).outq == [] then s
    else s.updTile t fun x => { x with inbuf := [[], [], [], []], outq := [] }) s
  let qs := s.eng.queues.filter fun p => match p.1 with
    | .port die k => !r.holds { die := die, tile := 256 + k }
    | .ctx _ _ => true
  { s with eng := { s.eng with queues := qs }, fab := { s.fab with
      windows := s.fab.windows.filter fun w => !r.holds w.1.src, returns := s.fab.returns.filter fun w => !r.holds w.2.src,
      requests := s.fab.requests.filter fun w => !r.holds w.1.src } }

/-- R248, R253: the channels that leave virtual region `v` of a launch. -/
def launchChannels (s : State) (l : Launch) (p : Placement) : List Channel :=
  match translateCtl s l.ctx l.image .read with
  | .ok pa => p.channels.map fun c =>
      let m := s.imageMem pa
      let r := m.dbl (pa + m.readN (pa + 0x18) 8 + 8 * c.link)
      let die := match l.places[bits r 40 6]? with
        | some q => q.die
        | none => p.die
      { act := placeAct p, slots := bits r 24 4, path := c.path, hops := s.pathHops c.path { die := p.die, tile := c.src },
        link := { src := { die := p.die, tile := c.src }, out := bits r 46 2, scene := bits r 7 2,
                  dest := .input { die := die, tile := c.dst } (bits r 28 2) } }
  | _ => []

/-- R252, R325: an act stands on its placed region; tiles that no block names take role 0. -/
def State.standAct (s : State) (l : Launch) (v : Nat) (p : Placement) : State :=
  let scenes := match placePa s l.ctx p with
    | some pa => imageScenes (s.imageMem pa) pa
    | none => []
  let a := launchAct l v p scenes
  let s := (s.freshCircuits a.region).setAct a
  let cs := launchChannels s l p
  let s := { s with fab := { s.fab with channels := s.fab.channels ++ cs } }
  -- R255: what an earlier launch has left in tiles that no block names is gone.
  let named := match placePa s l.ctx p with
    | some pa => imageTiles (s.imageMem pa) p.die pa
    | none => []
  let s := (s.ownTiles a.id).foldl (fun s t => if named.contains t then s else s.emptyTile t) s
  let s := (0 :: scenes.filter (· ≠ 0)).foldl (fun s k =>
    ((s.ownTiles a.id).filter fun t => (s.cfg t k).isNone).foldl (fun s t => s.writeSlot t k idleCfg) s) s
  let g := s.agenGates a.id
  s.updAct a.id fun a => a.updRegion fun r => { r with gates := g }

/-- R210, R343: the lines from the lowest to the highest address that a declared operand can touch: its elements lie in a box
of coordinates. [log 95 DEDUCED] -/
def Oper.lines (o : Oper) (t : TensorEntry) : Nat × Nat :=
  let d0 := dimOf t.d0
  let d1 := dimOf t.d1
  let last := o.first + (o.count - 1)
  let plane (j : Nat) : Nat := j / (d0 * d1)
  let row (j : Nat) : Nat := j / d0
  let c2 : Nat × Nat := (plane o.first, plane last)
  let c1 : Nat × Nat := if plane o.first = plane last then (row o.first % d1, row last % d1) else (0, d1 - 1)
  let c0 : Nat × Nat := if row o.first = row last then (o.first % d0, last % d0) else (0, d0 - 1)
  let ends (s : Dbl) (c : Nat × Nat) : Int × Int :=
    let a : Int := s.toInt * c.1
    let b : Int := s.toInt * c.2
    (min a b, max a b)
  let e0 := ends t.s0 c0
  let e1 := ends t.s1 c1
  let e2 := ends t.s2 c2
  let base : Int := t.base.toNat
  ((base + e0.1 + e1.1 + e2.1).toNat / 64, (base + e0.2 + e1.2 + e2.2 + (t.bytesOf : Int) - 1).toNat / 64)

/-- R288, R345: the range of a declared operand in a context; none for an invalid entry or an empty operand. -/
def operRange (s : State) (ctx act : Nat) (o : Oper) : Option Range :=
  match s.tensor ctx o.tid with
  | none => none
  | some t =>
    if o.count = 0 then none
    else
      let (lo, hi) := o.lines t
      some { act := act, also := [], write := o.write, space := t.space, lo := lo, hi := hi, src := 128, chan := 0, due := false }

/-- The node of a graph in the pool. -/
def State.node? (s : State) (g n : Nat) : Option GNode := (s.sch.graphs.find? (·.id == g)).bind fun x => x.nodes[n]?

/-- R345: the ranges that the node of a launch declares. -/
def nodeRanges (s : State) (l : Launch) (act : Nat) : List Range :=
  match l.node with
  | none => []
  | some (g, n) => match s.node? g n with
    | some y => y.opers.filterMap (operRange s l.ctx act)
    | none => []

/-- R295: the one task that the acts of a launch share, each with its checkpoint. -/
def State.sharedTask (s : State) (l : Launch) (ids : List Nat) : State :=
  let first := (ids.head?).getD 0
  let t : Task :=
    { no := s.eng.serial, stamp := l.stamp, act := first, parts := ids, step1 := false, checks := [], lines := [], deferred := [],
      ranges := nodeRanges s l first, accs := [], aborts := 0 }
  let s := { s with eng := { s.eng with serial := s.eng.serial + 1 } }
  let s := s.updCtx l.ctx fun c => { c with tasks := c.tasks ++ [t], reserved := c.reserved.filter (· ≠ l.stamp) }
  let s := ids.foldl (fun s id => s.updAct id fun a =>
    { a with taskOpen := true, regs := { a.regs with stamp := BitVec.ofNat 64 l.stamp } }) s
  ids.foldl (fun s id => s.takeCheckpoint id) s

/-- R296, R337: the acts of a launch that declares tasks have the stamp before its base behind them. -/
def State.declaredTasks (s : State) (l : Launch) (ids : List Nat) : State :=
  let s := s.updCtx l.ctx fun c => { c with reserved := c.reserved.filter (· ≠ l.stamp) }
  ids.foldl (fun s id => s.updAct id fun a => { a with prevStamp := l.stampb - 1 }) s

/-- R337 steps 5 and 6, R325: the set-up of a launch, and its start. -/
def State.setUp (s : State) (l : Launch) : State :=
  let s := l.places.foldl (fun s p => s.loadTensors l.ctx p) s
  let s := (List.range 32).foldl (fun s b =>
    let n := (l.barCounts[b]?).getD 0
    if n = 0 then s else s.initBar l.ctx (BitVec.ofNat 5 b) n) s
  let s := l.places.foldl (fun s p => s.grantBanks l.ctx p) s
  let s := s.updCtx l.ctx fun c => { c with ev := 0 }
  let s := (List.range l.places.length).foldl (fun s v => match l.places[v]? with
    | some p => s.standAct l v p
    | none => s) s
  let ids := l.places.map placeAct
  let s := if l.stampb = 0 then s.sharedTask l ids else s.declaredTasks l ids
  let s := ids.foldl (fun s id => s.launchPoint id) s
  let s := ids.foldl (fun s id => s.grantTokens id) s
  (s.updLaunch l.id fun l => { l with acts := ids, count := ids.length }).launchTo l.id .running 0 0

/-- R337 step 3: the blocks of a tile offered to it in image order, up to the first that it refuses: the code and scene. -/
def offerAll (m : Mem) (mps : List Nat) (t : TileId) : List Nat → State → (Nat × Nat) × State
  | [], s => ((0, 0), s)
  | a :: as, s =>
    let k := hdScn (m.dbl a)
    match s.offerBlock m mps t k a with
    | (0, s) => offerAll m mps t as s
    | (c, s) => ((c, k), s)

/-- R337: the placement whose region holds a tile, with its number. -/
def placeOf (l : Launch) (t : TileId) : Option (Nat × Placement) :=
  ((List.range l.places.length).filterMap fun v => (l.places[v]?).map fun p => (v, p)).find? fun p => (placeRegion p.2).holds t

/-- R255, R337 steps 3 and 4: TILE_ACKNOWLEDGEMENT: a tile, emptied of an earlier launch's words, takes its blocks and acknowledges, or the
launch fails. -/
def State.ackTile (s : State) (l : Launch) (t : TileId) : State :=
  match placeOf l t with
  | none => s
  | some (v, p) =>
    match placePa s l.ctx p with
    | none => s
    | some pa =>
      let m := s.imageMem pa
      let as := (imageBlocks m pa).filter fun a => hdTile (m.dbl a) == t.tile
      match offerAll m (mpsOf m (imageBlocks m pa) t.tile) t as (s.emptyTile t) with
      | ((0, _), s) =>
        let l := { l with awaiting := l.awaiting.filter (· ≠ t) }
        let s := s.updLaunch l.id fun _ => l
        if l.awaiting = [] then s.setUp l else s
      | ((c, k), s) => s.endLaunch l.id .failed (BitVec.ofNat 8 c) (loadArg t.tile k v)

/-- R11, R337, R351, R365: a tile takes the blocks of a launch while its virtual device has the quantum, no other act stands on the tile,
the launch's regions lie in its partition, and a link leads to its image. -/
def tileGiven (s : State) (l : Launch) (t : TileId) : Bool :=
  s.deviceRuns l.ctx && (s.ownerOf t).isNone && l.places.all (fun p => s.ownTag l.ctx (placeRegion p).tiles)
  && match translateCtl s l.ctx l.image .read with
    | .ok pa => s.served pa
    | _ => false

/-- R255, R337: TILE_ACKNOWLEDGEMENT. -/
def execTileAcknowledgement (launch : Nat) (t : TileId) (s : State) : Host.Outcome State Fault Refusal :=
  .next (match s.launch? launch with
    | none => s
    | some l => if l.state = .placing && l.awaiting.contains t && !s.ctl.sec.quiesced && tileGiven s l t then s.ackTile l t else s)

/-! ## Queue resets (R340) -/

/-- R340, R356: QUEUE_RESET_RECORD. A record that names a queue which the context does not hold, as one moved to a child, is skipped. [log 138 DEDUCED] -/
def execQueueResetRecord (ctx : Nat) (s : State) : Host.Outcome State Fault Refusal :=
  .next (takeHead s ctx 4 fun s va r =>
    let w := dblAt r 0
    if bits w 14 50 ≠ 0 || !((r.drop 1).all (· == 0)) || !((s.ctx ctx).qmask.getLsbD (bits w 8 6)) then s.skipRecord ctx va
    else (s.resetQueue (.ctx ctx (bits w 8 6))).takeRecord ctx)

end Sys2Proof.Machine
end

