-- ==== Sys2Proof/Machine/Graph.lean ====
section
/-! DEFINITION. Graphs, the ready pool, management functions, phases and jobs, and cancels (R342 to R349, R402). -/
namespace Sys2Proof.Machine

/-! ## Graph records (R342 to R344) -/

/-- The successor indices of a node, from doubles that each hold four. -/
def succsOf (n : Nat) (l : List Dbl) : List Nat :=
  (l.flatMap fun d => (List.range 4).map fun k => bits d (16 * k) 16).take n

/-- R343: an operand declaration. -/
def operOf (p : Dbl × Dbl) : Oper :=
  { tid := bits p.1 0 8, write := p.1.getLsbD 8, first := bits p.1 32 32, count := bits p.2 0 32 }

/-- R343: a node of a graph, with the fields of its record and its lists. -/
def nodeOf (r succs opers : List Dbl) : GNode :=
  let w := dblAt r 0
  { kind := bits w 0 8, npred := bits w 8 8, succ := succsOf (bits w 16 7) succs, stamp := (dblAt r 1).toNat,
    payload := dblAt r 2, opers := (pairs opers).map operOf, preds := 0, dispatched := false, completed := false,
    result := none, launch := none, chainLeft := 0 }

/-- R343: a node record in order, for a graph of `n` nodes. -/
def nodeOk (n : Nat) (r : List Dbl) (succ : List Nat) : Bool :=
  let w := dblAt r 0
  1 ≤ bits w 0 8 && bits w 0 8 ≤ 3 && bits w 16 7 ≤ 64 && bits w 24 7 ≤ 32 && !(w.getLsbD 23) && bits w 31 33 == 0
    && dblAt r 5 == 0 && dblAt r 6 == 0 && dblAt r 7 == 0 && succ.all fun k => decide (k < n)

/-- R343: the node records from an address, with whether each is in order. -/
def readNodes (ctx n : Nat) : Nat → Dbl → List (GNode × Bool) → State → SchedRead (List (GNode × Bool))
  | 0, _, l, s => .got l s
  | k + 1, va, l, s =>
    (readDbls ctx 8 va [] s).bind fun r s =>
    let w := dblAt r 0
    let nsucc := Nat.min (bits w 16 7) 64
    let noper := Nat.min (bits w 24 7) 32
    (readDbls ctx ((nsucc + 3) / 4) (dblAt r 3) [] s).bind fun succs s =>
    (readDbls ctx (2 * noper) (dblAt r 4) [] s).bind fun opers s =>
    readNodes ctx n k (va + 64) (l ++ [(nodeOf r succs opers, nodeOk n r (succsOf nsucc succs))]) s

/-- How often the successor lists of a graph name node `k`. -/
def predsOf (ns : List GNode) (k : Nat) : Nat := (ns.map fun x => x.succ.countP (· == k)).foldl (· + ·) 0

/-- R344: the nodes that remain once those without an unordered predecessor have been taken away, `n` times. -/
def peel (ns : List GNode) : Nat → List Nat → List Nat
  | 0, left => left
  | n + 1, left =>
    let blocked (k : Nat) : Bool := left.any fun j => match ns[j]? with
      | some x => x.succ.contains k
      | none => false
    peel ns n (left.filter blocked)

/-- A list that holds some number twice. -/
def hasTwice : List Nat → Bool
  | [] => false
  | a :: l => l.contains a || hasTwice l

/-- R344: the code with which a graph is refused, with its argument where the manual names one. [log 96 DEDUCED] -/
def graphError (c : Ctx) (ns : List (GNode × Bool)) : Option (Byte × Option Dbl) :=
  let xs := ns.map (·.1)
  let stamps := xs.map (·.stamp)
  match stamps.find? fun n => decide (n ≤ c.highest) || stamps.count n != 1 with
  | some n => some (0x22, some (BitVec.ofNat 64 n))
  | none =>
    if xs = [] || 4096 < xs.length || !(ns.all (·.2))
        || !((List.range xs.length).all fun k => match xs[k]? with
          | some x => x.npred == predsOf xs k
          | none => false)
        || peel xs xs.length (List.range xs.length) ≠ [] then some (0x30, none)
    else none

/-- R346: the completion record of a graph, as it stands. -/
def State.writeGraph (s : State) (x : Graph) (st : Nat) : State :=
  s.writeCompletion x.ctx x.done x.count st 2 true (if st = 2 then x.code else 0) (if st = 2 then x.arg else 0)

/-- R346: the completion record of a phase or job, as it stands. -/
def State.writeLevel (s : State) (v : Level) (st : Nat) : State :=
  s.writeCompletion v.ctx v.addr v.count st v.level v.closed (if st = 2 then v.code else 0) (if st = 2 then v.arg else 0)

/-- R346: failed outranks cancelled, which outranks complete. -/
def worse (a b : Nat) : Nat := if a = 2 || b = 2 then 2 else if a = 3 || b = 3 then 3 else 1

/-- A phase or job changed. -/
def State.updLevel (s : State) (ctx level : Nat) (addr : Dbl) (f : Level → Level) : State :=
  let ls := s.sch.levels.map fun v => if v.ctx = ctx && v.level = level && v.addr = addr then f v else v
  { s with sch := { s.sch with levels := ls } }

def State.level? (s : State) (ctx level : Nat) (addr : Dbl) : Option Level :=
  s.sch.levels.find? fun v => v.ctx == ctx && v.level == level && v.addr == addr

/-- R346: one more child of a level, and whether the level is then closed. -/
def State.addChild (s : State) (ctx level : Nat) (addr up : Dbl) (count : Nat) (close : Bool) : State :=
  let s := if (s.level? ctx level addr).isSome then s
    else { s with sch := { s.sch with levels := s.sch.levels ++
      [{ addr := addr, ctx := ctx, level := level, count := 0, closed := false, cancelling := false, cancelAt := none, worst := 1, code := 0,
         arg := 0, up := up }] } }
  let s := s.updLevel ctx level addr fun v => { v with count := v.count + count, closed := v.closed || close }
  match s.level? ctx level addr with
  | some v => s.writeLevel v 0
  | none => s

/-- R342, R346: a graph entered under its phase and job. -/
def State.enterLevels (s : State) (ctx : Nat) (ph job : Dbl) (clp clj : Bool) : State :=
  if ph = 0 then s
  else
    let new := if (s.level? ctx 3 ph).isSome then 0 else 1
    let s := s.addChild ctx 3 ph job 1 clp
    if job = 0 then s else s.addChild ctx 4 job 0 new clj

/-- R344: the nodes in the ready pool. -/
def State.poolSize (s : State) : Nat := (s.sch.graphs.map fun x => x.nodes.countP fun y => !y.completed).foldl (· + ·) 0

/-- R399: RDY, when a node of a graph becomes ready: its last predecessor has completed. -/
def State.signalReady (s : State) (g : Nat) (ks : List Nat) : State :=
  match s.sch.graphs.find? (·.id == g) with
  | none => s
  | some x => if ks.any fun k => match x.nodes[k]? with
      | some y => !y.completed && !y.dispatched && y.preds == y.npred
      | none => false then s.signal 1 else s

/-- R342, R344: a graph whose record and nodes have been read, and its record taken. -/
def State.enterGraph (s : State) (ctx : Nat) (r : List Dbl) (ns : List (GNode × Bool)) : State :=
  let w := dblAt r 0
  let x : Graph :=
    { id := s.eng.serial, ctx := ctx, done := dblAt r 2, phase := dblAt r 3, job := dblAt r 4, nodes := ns.map (·.1),
      count := ns.length, cancelling := false, cancelAt := none, worst := 1, code := 0, arg := 0 }
  let bad := if x.phase = 0 && x.job ≠ 0 then some (0x30, none) else graphError (s.ctx ctx) ns
  match bad with
  | some (c, a) =>
    let (y, s) := s.free
    (s.takeRecord ctx).writeGraph { x with code := c, arg := a.getD (BitVec.ofNat 64 y) } 2
  | none =>
    let stamps := x.nodes.map (·.stamp)
    let s := { s with eng := { s.eng with serial := s.eng.serial + 1 }, sch := { s.sch with graphs := s.sch.graphs ++ [x] } }
    let s := s.updCtx ctx fun c =>
      { c with reserved := c.reserved ++ stamps, highest := stamps.foldl Nat.max c.highest }
    let s := ((s.enterLevels ctx x.phase x.job (w.getLsbD 21) (w.getLsbD 22)).writeGraph x 0).takeRecord ctx
    s.signalReady x.id (List.range x.nodes.length)

/-- R342: a graph record with no reserved bit set and a completion record. -/
def graphClean (r : List Dbl) : Bool :=
  bits (dblAt r 0) 23 41 == 0 && (r.drop 5).all (· == 0) && dblAt r 2 != 0 && (dblAt r 2).toNat % 32 == 0

/-- R344: GRAPH_RECORD. -/
def execGraphRecord (ctx : Nat) (s : State) : Host.Outcome State Fault Refusal :=
  .next (takeHead s ctx 2 fun s va r =>
    if !(graphClean r) then s.skipRecord ctx va
    else
      let n := bits (dblAt r 0) 8 13
      if 4096 < n then s.enterGraph ctx r []
      else if 16384 < s.poolSize + n then s
      else match readNodes ctx n n (dblAt r 1) [] s with
      | .got ns s => s.enterGraph ctx r ns
      | .wait s => s
      | .fail c a s =>
        let x := ({ id := 0, ctx := ctx, done := dblAt r 2, phase := 0, job := 0, nodes := [], count := n, cancelling := false, cancelAt := none,
                    worst := 2, code := c, arg := a } : Graph)
        (s.takeRecord ctx).writeGraph x 2)

/-! ## Readiness (R345, R347) -/

/-- R345: two declared operands overlap, one of them written. -/
def opersMeet (s : State) (ctx : Nat) (a b : Oper) : Bool :=
  (a.write || b.write) &&
  ((a.tid == b.tid && decide (a.first < b.first + b.count) && decide (b.first < a.first + a.count))
    || match operRange s ctx 0 a, operRange s ctx 0 b with
      | some x, some y => x.space == y.space && decide (x.lo ≤ y.hi) && decide (y.lo ≤ x.hi)
      | _, _ => false)

/-- R345: an uncompleted node of lower stamp in the same graph holds a node back. -/
def heldBack (s : State) (x : Graph) (y : GNode) : Bool :=
  x.nodes.any fun z => !z.completed && decide (z.stamp < y.stamp) && y.opers.any fun a => z.opers.any (opersMeet s x.ctx a)

/-- R347: an earlier phase of the graph's job has not completed. [log 98 DEDUCED] -/
def phaseWaits (s : State) (x : Graph) : Bool :=
  if x.phase = 0 || x.job = 0 then false
  else ((s.sch.levels.filter fun v => v.ctx == x.ctx && v.level == 3 && v.up == x.job).head?.map (·.addr)).getD x.phase != x.phase

/-- R297, R345: the stamp of a node is oldest in its domain. -/
def stampOldest (s : State) (ctx n : Nat) : Bool :=
  let c := s.ctx ctx
  (c.tasks.all fun u => decide (n < u.stamp)) && (c.reserved.all fun r => decide (n ≤ r)) &&
  s.acts.all fun p => p.2.ctx != ctx || p.2.taskOpen || decide (n ≤ p.2.prevStamp) || p.2.life == .free || p.2.life == .halted

/-- R343: FIRST, N and the queue of a chain block. -/
structure ChainBlock where
  first : Dbl
  n : Nat
  queue : Nat
deriving DecidableEq, Repr

/-- R343: a node's payload of two doubles. -/
def readPair (s : State) (ctx : Nat) (va : Dbl) : SchedRead (Dbl × Dbl) :=
  (readDbls ctx 2 va [] s).bind fun l s => .got (dblAt l 0, dblAt l 1) s

def chainBlock (p : Dbl × Dbl) : ChainBlock := { first := p.1, n := bits p.2 0 32, queue := bits p.2 32 6 }

/-- R345, R347: a node that is ready and that nothing holds back. -/
def nodeReady (s : State) (x : Graph) (y : GNode) : Bool :=
  !y.dispatched && !y.completed && y.preds == y.npred && !x.cancelling && !(phaseWaits s x) && !(heldBack s x y)
    && !((s.ctx x.ctx).revoking) && (y.kind == 1 || stampOldest s x.ctx y.stamp)

/-- R345: among the ready nodes of a context that wait for one kind of engine, this one has the lowest stamp. Chains and
functions wait until they are oldest, so two of a domain are never ready at once. -/
def lowestReady (s : State) (x : Graph) (y : GNode) : Bool :=
  s.sch.graphs.all fun g => g.ctx != x.ctx || g.nodes.all fun z =>
    z.kind != y.kind || decide (y.stamp ≤ z.stamp) || !(nodeReady s g z)

/-! ## Dispatch (R345) -/

/-- The number that stands for the task-graph machine among the parts of a task. -/
def graphPart : Nat := 1024

/-- R295, R345: the task of a chain or function node, with its declared ranges. -/
def State.openNodeTask (s : State) (x : Graph) (y : GNode) : State :=
  let t : Task :=
    { no := s.eng.serial, stamp := y.stamp, act := 512, parts := [graphPart], step1 := false, checks := [], lines := [],
      deferred := [], ranges := y.opers.filterMap (operRange s x.ctx 512), accs := [], aborts := 0 }
  let s := { s with eng := { s.eng with serial := s.eng.serial + 1 } }
  s.updCtx x.ctx fun c => { c with tasks := c.tasks ++ [t], reserved := c.reserved.filter (· ≠ y.stamp) }

/-- A node dispatched; with a result it has already returned. -/
def State.markDispatched (s : State) (g n : Nat) (r : Option (Byte × Dbl)) : State :=
  s.updNode g n fun y => { y with dispatched := true, result := r }

/-- R345, R209: a chain node handed to its queue's server. A queue that no binding has made takes 0x01, and one that the context
does not hold 0x12. `none` while the queue serves another chain. [log 97 DEDUCED] -/
def State.dispatchChain (s : State) (x : Graph) (n : Nat) (y : GNode) (b : ChainBlock) : Option State :=
  let q : QueueId := .ctx x.ctx b.queue
  let k := s.queue q
  let no := BitVec.ofNat 64 b.queue
  if !((s.ctx x.ctx).qmask.getLsbD b.queue) then some ((s.openNodeTask x y).markDispatched x.id n (some (0x12, no)))
  else if !(s.bound q) then some ((s.openNodeTask x y).markDispatched x.id n (some (0x01, y.payload)))
  else if k.chain.isSome || k.node.isSome || k.state = 2 then none
  else if b.n = 0 then some ((s.openNodeTask x y).markDispatched x.id n (some (0, 0)))
  else
    let s := (s.openNodeTask x y).markDispatched x.id n none
    let s := s.updNode x.id n fun y => { y with chainLeft := b.n }
    some (s.updQueue q fun k =>
      { k with chain := some b.first, head := b.first, node := some (x.id, n), owner := (512, x.ctx, y.stamp) })

/-- R343, R345: the launch of a launch node, with the node's stamp, begins to wait for its region. -/
def State.dispatchLaunch (s : State) (x : Graph) (n : Nat) (y : GNode) (r : List Dbl) : State :=
  if bits (dblAt r 0) 0 8 ≠ 1 || !(launchClean r) then s.markDispatched x.id n (some (0x30, y.payload))
  else
    let l := launchOf s.eng.serial x.ctx r (some (x.id, n)) y.stamp
    (s.updNode x.id n fun y => { y with dispatched := true, launch := some l.id }).addLaunch l

/-- R345: a ready node dispatched. A payload that cannot be read fails the node. -/
def State.dispatchNode (s : State) (x : Graph) (n : Nat) (y : GNode) : State :=
  match y.kind with
  | 1 => match readDbls x.ctx 8 y.payload [] s with
    | .got r s => s.dispatchLaunch x n y r
    | .wait s => s
    | .fail c a s => s.markDispatched x.id n (some (c, a))
  | 2 => match readPair s x.ctx y.payload with
    | .got p s => (s.dispatchChain x n y (chainBlock p)).getD s
    | .wait s => s
    | .fail c a s => (s.openNodeTask x y).markDispatched x.id n (some (c, a))
  | _ => match readPair s x.ctx y.payload with
    | .got p s =>
      -- R402: an unlisted FUNC fails the node.
      (s.openNodeTask x y).markDispatched x.id n (if 1 ≤ p.1.toNat && p.1.toNat ≤ 4 then none else some (0x01, 0))
    | .wait s => s
    | .fail c a s => (s.openNodeTask x y).markDispatched x.id n (some (c, a))

def State.graph? (s : State) (g : Nat) : Option Graph := s.sch.graphs.find? (·.id == g)

/-- A node of a graph that satisfies `ok`, with its graph. -/
def withNode (s : State) (g n : Nat) (ok : Graph → GNode → Bool) (f : Graph → GNode → State) : State :=
  match s.graph? g with
  | none => s
  | some x => match x.nodes[n]? with
    | none => s
    | some y => if ok x y then f x y else s

/-- R345: NODE_DISPATCH. -/
def execNodeDispatch (graph node : Nat) (s : State) : Host.Outcome State Fault Refusal :=
  .next (withNode s graph node
    (fun x y => nodeReady s x y && lowestReady s x y && s.deviceRuns x.ctx && !s.ctl.sec.quiesced)
    fun x y => s.dispatchNode x node y)

/-! ## Completion (R345, R346, R349) -/

/-- R346, R349: STATE of a phase or job that ends: its cancel is ignored where its count reaches 0 in the same cycle through children
that the cancel has not dropped. -/
def State.levelState (s : State) (v : Level) : Nat :=
  if v.cancelling && (v.cancelAt != some s.cycle || v.worst == 3) then 3 else v.worst

/-- R346: a phase or job of which a child has completed with an outcome; one that is closed and has no child left completes. -/
def State.childEnds (s : State) (ctx level : Nat) (addr : Dbl) (st : Nat) (code : Byte) (arg : Dbl) : State × Option Level :=
  let s := s.updLevel ctx level addr fun v =>
    { v with count := v.count - 1, worst := worse v.worst st, code := if v.worst = 2 then v.code else code,
             arg := if v.worst = 2 then v.arg else arg }
  match s.level? ctx level addr with
  | none => (s, none)
  | some v =>
    if v.count = 0 && (v.closed || v.cancelling) then
      let s := s.writeLevel v (s.levelState v)
      let ls := s.sch.levels.filter fun u => !(u.ctx == ctx && u.level == level && u.addr == addr)
      ({ s with sch := { s.sch with levels := ls } }, some v)
    else (s.writeLevel v 0, none)

/-- R346, R349: a graph that has ended leaves the pool, and its phase and job count it. -/
def State.graphEnds (s : State) (x : Graph) : State :=
  let st := if x.cancelling && x.cancelAt != some s.cycle then 3 else x.worst
  let s := s.writeGraph x st
  let s := { s with sch := { s.sch with graphs := s.sch.graphs.filter (·.id ≠ x.id) } }
  if x.phase = 0 then s
  else match s.childEnds x.ctx 3 x.phase st x.code x.arg with
  | (s, none) => s
  | (s, some v) =>
    if v.up = 0 then s else (s.childEnds x.ctx 4 v.up (s.levelState v) v.code v.arg).1

/-- R346: a graph whose counts have changed: its record, and its end. -/
def State.graphCounts (s : State) (g : Nat) : State :=
  match s.graph? g with
  | none => s
  | some x => if x.count = 0 then s.graphEnds x else s.writeGraph x 0

/-- R346, R348: the completion record that the payload of a dropped launch node names takes STATE 3. [log 139 DEDUCED] -/
def State.cancelRecord (s : State) (ctx : Nat) (y : GNode) : State :=
  if y.kind ≠ 1 then s
  else match readDbls ctx 8 y.payload [] s with
    | .got r s => if bits (dblAt r 0) 0 8 = 1 && launchClean r then s.writeCompletion ctx (dblAt r 6) 0 3 1 false 0 0 else s
    | .wait s => s
    | .fail _ _ s => s

/-- R348: the nodes of a graph that have not been dispatched dropped, and their stamps released. -/
def State.dropNodes (s : State) (g : Nat) : State :=
  match s.graph? g with
  | none => s
  | some x =>
    let gone := x.nodes.filter fun y => !y.dispatched && !y.completed
    let s := gone.foldl (fun s y => s.cancelRecord x.ctx y) s
    let s := s.updCtx x.ctx fun c => { c with reserved := c.reserved.filter fun r => !(gone.any (·.stamp == r)) }
    s.updGraph g fun x =>
      { x with nodes := x.nodes.map fun y => if y.dispatched then y else { y with completed := true },
               count := x.count - gone.length, worst := if gone = [] then x.worst else worse x.worst 3 }

/-- R345: how a dispatched node has ended, if it has: STATE, code and argument. -/
def nodeOutcome (s : State) (y : GNode) : Option (Nat × Byte × Dbl) :=
  match y.result with
  | some (c, a) => some (if c = 0 then (1, 0, 0) else (2, c, a))
  | none =>
    if y.kind = 2 then (if y.dispatched && y.chainLeft = 0 then some (1, 0, 0) else none)
    else match y.launch.bind s.launch? with
    | none => none
    | some l => match l.state with
      | .complete => some (1, 0, 0)
      | .cancelled => some (3, 0, 0)
      | .failed => some (2, l.outcome.1, l.outcome.2)
      | _ => none

/-- R295: the task of a chain or function node has no part left. -/
def State.endNodeTask (s : State) (ctx : Nat) (y : GNode) : State :=
  s.updTask ctx y.stamp fun t => { t with parts := t.parts.filter (· ≠ graphPart) }

/-- R345: a node completes: its successors count it, and a failure cancels the nodes that have not been dispatched. -/
def State.completeNode (s : State) (x : Graph) (n : Nat) (y : GNode) (st : Nat) (code : Byte) (arg : Dbl) : State :=
  let s := s.endNodeTask x.ctx y
  let s := s.updCtx x.ctx fun c => { c with reserved := c.reserved.filter (· ≠ y.stamp) }
  let s := s.updNode x.id n fun y => { y with completed := true }
  let s := s.updGraph x.id fun x =>
    { x with count := x.count - 1, worst := worse x.worst st, code := if x.worst = 2 then x.code else code,
             arg := if x.worst = 2 then x.arg else arg }
  let s := if st = 1 then
      (y.succ.foldl (fun s k => s.updNode x.id k fun z => { z with preds := z.preds + 1 }) s).signalReady x.id y.succ
    else s.dropNodes x.id
  s.graphCounts x.id

/-- R345: NODE_COMPLETION. -/
def execNodeCompletion (graph node : Nat) (s : State) : Host.Outcome State Fault Refusal :=
  .next (withNode s graph node (fun _ y => y.dispatched && !y.completed) fun x y =>
    match nodeOutcome s y with
    | none => s
    | some (st, c, a) => s.completeNode x node y st c a)

/-! ## Management functions (R402) -/

/-- R402: the pages of a range, each walked; the state in which those not present have been asked for, and whether all are
present. A refusal or another fault ends the function with its code. -/
def prefaultPages (ctx : Nat) : Nat → Dbl → Bool → State → SchedRead Bool
  | 0, _, all, s => .got all s
  | n + 1, va, all, s =>
    match schedAccess s ctx va .read with
    | (.ok _, s) => prefaultPages ctx n (va + 4096) all s
    | (.wait, s) => prefaultPages ctx n (va + 4096) false s
    | (.fault 0x13 _, s) => .got false s
    | (.fault c a, s) => .fail c a s

/-- A function of a node returns with a code. -/
def State.returns (s : State) (x : Graph) (n : Nat) (code : Byte) (arg : Dbl) : State :=
  s.updNode x.id n fun y => { y with result := some (code, arg) }

/-- R402: a function node that has been dispatched and has not returned, its FUNC the one asked for; its ARG given to `f`. -/
def runFunction (s : State) (graph node func : Nat) (f : State → Graph → Dbl → State) : State :=
  withNode s graph node (fun _ y => y.kind == 3 && y.dispatched && !y.completed && y.result.isNone) fun x y =>
    match readPair s x.ctx y.payload with
    | .got p s => if p.1.toNat = func then f s x p.2 else s
    | .wait s => s
    | .fail c a s => s.returns x node c a

/-- R402: PREFAULT. [log 99 DEDUCED] -/
def execPrefault (graph node : Nat) (s : State) : Host.Outcome State Fault Refusal :=
  .next (runFunction s graph node 1 fun s x arg =>
    match readPair s x.ctx arg with
    | .wait s => s
    | .fail c a s => s.returns x node c a
    | .got p s =>
      let first := p.1.toNat / 4096
      let n := if p.2 = 0 then 0 else (p.1.toNat + p.2.toNat - 1) / 4096 - first + 1
      match prefaultPages x.ctx n (BitVec.ofNat 64 (first * 4096)) true s with
      | .got all s => if all then s.returns x node 0 0 else s
      | .wait s => s
      | .fail c a s => s.returns x node c a)

/-- The bytes of a range of a context, read by the scheduler. -/
def readBytes (ctx : Nat) : Nat → Dbl → List Byte → State → SchedRead (List Byte)
  | 0, _, l, s => .got l s
  | n + 1, va, l, s =>
    match schedAccess s ctx va .read with
    | (.ok pa, s) => readBytes ctx n (va + 1) (l ++ [s.mem.read pa]) s
    | (.wait, s) => .wait s
    | (.fault c a, s) => .fail c a s

/-- R288, R298, R300: what a function has stored is in the dirty ranges of its node's task. -/
def State.recordFunction (s : State) (x : Graph) (node : Nat) (va : Dbl) (n : Nat) : State :=
  match s.node? x.id node with
  | none => s
  | some y =>
    let r : Range := { act := 512, also := [], write := true, space := false, lo := va.toNat / 64, hi := (va.toNat + n - 1) / 64, src := 128,
                       chan := 0, due := false }
    s.updTask x.ctx y.stamp fun t => { t with ranges := t.ranges ++ [r] }

/-- R402: a store of a function, `n` bytes at `va`; `n` divides no page boundary when `va` is aligned. -/
def State.functionStore (s : State) (x : Graph) (node : Nat) (va : Dbl) (n v : Nat) : State :=
  match schedAccess s x.ctx va .write with
  | (.wait, s) => s
  | (.fault c a, s) => s.returns x node c a
  | (.ok _, s) =>
    match schedAccess s x.ctx (va + BitVec.ofNat 64 (n - 1)) .write with
    | (.wait, s) => s
    | (.fault c a, s) => s.returns x node c a
    | (.ok _, s) =>
      let s := (List.range n).foldl (fun s i => storeCtl s x.ctx (va + BitVec.ofNat 64 i) 1 (v / 256 ^ i % 256)) s
      (s.recordFunction x node va n).returns x node 0 0

/-- R402: CRC. -/
def execCrc (graph node : Nat) (s : State) : Host.Outcome State Fault Refusal :=
  .next (runFunction s graph node 2 fun s x arg =>
    match readDbls x.ctx 3 arg [] s with
    | .wait s => s
    | .fail c a s => s.returns x node c a
    | .got p s =>
      match readBytes x.ctx (dblAt p 1).toNat (dblAt p 0) [] s with
      | .wait s => s
      | .fail c a s => s.returns x node c a
      | .got bs s => s.functionStore x node (dblAt p 2) 4 (crc32c bs).toNat)

/-- R402, R340: QRESET. A queue that the context does not hold gives 0x12. -/
def execQreset (graph node : Nat) (s : State) : Host.Outcome State Fault Refusal :=
  .next (runFunction s graph node 3 fun s x arg =>
    let q := bits arg 0 6
    if (s.ctx x.ctx).qmask.getLsbD q then (s.resetQueue (.ctx x.ctx q)).returns x node 0 0
    else s.returns x node 0x12 (BitVec.ofNat 64 q))

/-- R402: NOTE. -/
def execNote (graph node : Nat) (s : State) : Host.Outcome State Fault Refusal :=
  .next (runFunction s graph node 4 fun s x arg =>
    match readPair s x.ctx arg with
    | .wait s => s
    | .fail c a s => s.returns x node c a
    | .got p s => s.functionStore x node p.1 8 p.2.toNat)

/-! ## Cancels (R348, R349) -/

/-- R348 steps 1 to 4: a launch cancelled, and its acts curtained. -/
def State.cancelActs (s : State) (id : Nat) : State :=
  let s := s.cancelLaunch id
  s.acts.foldl (fun s p => if p.2.life ≠ .free && p.2.launch = some id then s.curtainFor p.1 1 else s) s

/-- R348: a dispatched chain node of a cancelled graph hands back its queue's chain; commands already placed stand. -/
def State.dropChain (s : State) (g n : Nat) : State :=
  let qs := (s.eng.queues.filter fun p => p.2.node == some (g, n)).map (·.1)
  qs.foldl (fun s q => s.updQueue q fun x => { x with node := none, chain := none, head := 0 }) s

/-- R348: what a cancel does to a dispatched node: its launch is cancelled, and a chain or function ends. -/
def State.cancelNode (s : State) (x : Graph) (n : Nat) : State :=
  match s.node? x.id n with
  | none => s
  | some y =>
    if !y.dispatched || y.completed then s
    else match y.launch with
    | some l => s.cancelActs l
    | none => if y.result.isSome then s else
      let s := (s.dropChain x.id n).endNodeTask x.ctx y
      let s := s.updNode x.id n fun y => { y with completed := true }
      s.updGraph x.id fun x => { x with count := x.count - 1, worst := worse x.worst 3, cancelAt := none }

/-- R348: a graph cancelled. -/
def State.cancelGraph (s : State) (g : Nat) : State :=
  match s.graph? g with
  | none => s
  | some x =>
    if x.cancelling then s
    else
      let whole := x.nodes.all fun y => y.dispatched || y.completed
      let s := (s.updGraph g fun x => { x with cancelling := true, cancelAt := if whole then some s.cycle else none }).dropNodes g
      ((List.range x.nodes.length).foldl (fun s n => s.cancelNode x n) s).graphCounts g

/-- R348: a phase or job that a cancel leaves without children ends. -/
def State.endEmpty (s : State) (ctx level : Nat) (addr : Dbl) : State :=
  match s.level? ctx level addr with
  | none => s
  | some v =>
    if v.count = 0 && v.cancelling then
      let s := s.writeLevel v 3
      let ls := s.sch.levels.filter fun u => !(u.ctx == ctx && u.level == level && u.addr == addr)
      let s := { s with sch := { s.sch with levels := ls } }
      if level = 4 || v.up = 0 then s else (s.childEnds ctx 4 v.up 3 0 0).1
    else s

/-- R348: a phase or job cancelled, with all under it. -/
def State.cancelLevel (s : State) (v : Level) : State :=
  let now := some s.cycle
  let s := s.updLevel v.ctx v.level v.addr fun v => { v with cancelling := true, cancelAt := if v.cancelling then v.cancelAt else now }
  let phases := if v.level = 3 then [v.addr]
    else (s.sch.levels.filter fun u => u.ctx == v.ctx && u.level == 3 && u.up == v.addr).map (·.addr)
  let s := phases.foldl (fun s p => s.updLevel v.ctx 3 p fun u => { u with cancelling := true, cancelAt := if u.cancelling then u.cancelAt else now }) s
  let gs := s.sch.graphs.filter fun x => x.ctx == v.ctx && x.phase != 0 && phases.contains x.phase
  let s := gs.foldl (fun s x => s.cancelGraph x.id) s
  (phases.foldl (fun s p => s.endEmpty v.ctx 3 p) s).endEmpty v.ctx v.level v.addr

/-- R348: the level of a context that owns a completion record cancelled; a TARGET that names no open level is ignored. -/
def State.cancelTarget (s : State) (ctx : Nat) (target : Dbl) : State :=
  match s.sch.launches.find? fun l => l.ctx == ctx && l.done == target && !l.state.ended with
  | some l => s.cancelActs l.id
  | none => match s.sch.graphs.find? fun x => x.ctx == ctx && x.done == target with
    | some x => s.cancelGraph x.id
    | none => match s.sch.levels.find? fun v => v.ctx == ctx && v.addr == target with
      | some v => s.cancelLevel v
      | none => s

/-- R348: CANCEL_RECORD. -/
def execCancelRecord (ctx : Nat) (s : State) : Host.Outcome State Fault Refusal :=
  .next (takeHead s ctx 3 fun s va r =>
    if bits (dblAt r 0) 8 56 ≠ 0 || !((r.drop 2).all (· == 0)) then s.skipRecord ctx va
    else (s.cancelTarget ctx (dblAt r 1)).takeRecord ctx)

end Sys2Proof.Machine
end

