-- ==== Sys2Proof/Machine/Quanta.lean ====
section
/-! DEFINITION. Scheduling periods, quanta and held reflection records (R350, R351, R363). -/
namespace Sys2Proof.Machine

/-! ## Periods (R350) -/

/-- R350: the balances of a virtual device's contexts at a period boundary. -/
def State.newPeriod (s : State) (v : VDev) : State :=
  let renew (c : Ctx) : Ctx :=
    if s.inSubtree v.ctx c.id && 1 < c.depth then { c with balance := (c.portion : Int) + min c.balance 0 } else c
  let cs := s.ctxs.map fun p => (p.1, renew p.2)
  { s with ctxs := cs }.updVdev v.ctx fun v => { v with periodEnd := v.periodEnd + 2300 * v.period }

/-- R350: SCHEDULING_PERIOD_BOUNDARY. [log 100 DEDUCED] -/
def execSchedulingPeriodBoundary (vdev : Nat) (s : State) : Host.Outcome State Fault Refusal :=
  .next (match s.sch.vdevs.find? (·.ctx == vdev) with
    | none => s
    | some v => if s.cycle < v.periodEnd then s else s.newPeriod v)

/-! ## Quanta (R351) -/

/-- R351: a quantum in cycles: bell slots, or steps of 10 µs in a partition without a bell. -/
def quantumCycles (p : PartSpec) (v : VDev) : Nat := v.quantum * (if p.slotLen = 0 then 23000 else slotCycles p)

/-- R351: the switch gap of a partition in cycles. [log 100 DEDUCED] -/
def gapCycles (p : PartSpec) : Nat := (p.gap * 2300 + 999) / 1000

/-- R351: the virtual devices of a partition. -/
def State.devicesOf (s : State) (part : Nat) : List VDev := s.sch.vdevs.filter (·.part == part)

/-- R351: the device whose quantum follows that of `running`, in ascending order of numbers. -/
def nextDevice (vs : List VDev) (running : Nat) : Option VDev :=
  match argMin (·.ctx) (vs.filter fun v => running < v.ctx) with
  | some v => some v
  | none => argMin (·.ctx) vs

/-- R351 step 1: the outgoing device's regions are curtained. The tiles of a launch of it that is still being placed are given their blocks
again when it next has the quantum. -/
def State.curtainDevice (s : State) (dev : Nat) : State :=
  let s := (s.unplaced.filter fun l => s.rootOf l.ctx == dev).foldl (fun s l =>
    s.updLaunch l.id fun l => { l with awaiting := placeTiles s l.ctx l.places }) s
  s.acts.foldl (fun s p => if p.2.present && s.rootOf p.2.ctx = dev && !p.2.leaving then s.switchOut p.1 0 else s) s

/-- R351 step 2: the regions of the incoming device are restored: those that a quantum or an alarm
since released took out, and those drained whose requests have been answered. -/
def State.restoreDevice (s : State) (dev : Nat) : State :=
  (s.sch.green.foldl (fun s g =>
    if (g.reason = 0 || g.reason = 5) && s.rootOf (s.act g.act.id).ctx = dev then s.restoreHome g.act.id else s) s).restoreDrained

/-- R351: the outgoing device stands on no region any longer. -/
def State.deviceSaved (s : State) (dev : Nat) : Bool := s.acts.all fun p => !p.2.present || s.rootOf p.2.ctx != dev

/-- R351 step 3: the quantum of device `v` begins at the end of the gap, whether the switch is over or not. [log 100 DEDUCED] -/
def State.beginQuantum (s : State) (p : Partition) (v : VDev) : State :=
  let q := quantumCycles p.spec v
  let s := s.updPart p.id fun p =>
    { p with running := v.ctx, switching := false, quantumEnd := p.nextStart + (q - v.debt), nextStart := p.nextStart + q + gapCycles p.spec,
             late := some (p.running, p.nextStart) }
  (s.updVdev v.ctx fun v => { v with debt := 0 }).restoreDevice v.ctx

/-- R351: the incoming device has all its regions back that the quantum restores. -/
def State.deviceBack (s : State) (dev : Nat) : Bool :=
  s.sch.green.all fun g => g.reason != 0 || s.rootOf (s.act g.act.id).ctx != dev || (s.act g.act.id).life != .switchedOut

/-- R351: a switch that outlasted the gap is over in this cycle: what it took is deducted from the outgoing device's next quantum. [log 100 DEDUCED] -/
def State.endSwitches (s : State) : State :=
  s.sch.parts.foldl (fun s p => match p.late with
    | none => s
    | some (dev, start) =>
      let s := if s.deviceSaved dev then s.restoreDevice p.running else s
      if s.deviceSaved dev && s.deviceBack p.running then
        (s.updVdev dev fun o => { o with debt := s.cycle - start }).updPart p.id fun p => { p with late := none }
      else s) s

/-- R351: QUANTUM_BOUNDARY. A quantum that has ended opens the gap, and the next begins at its end. A partition with one device gives it the quantum for good. -/
def State.quantum (s : State) (p : Partition) : State :=
  let vs := s.devicesOf p.id
  match nextDevice vs p.running with
  | none => s
  | some v =>
    if vs.length ≤ 1 then
      if p.running = v.ctx then s
      else (s.updPart p.id fun p => { p with running := v.ctx, switching := false }).restoreDevice v.ctx
    else if !p.switching then
      if s.cycle < p.quantumEnd then s.restoreDevice p.running
      else (s.updPart p.id fun p => { p with switching := true }).curtainDevice p.running
    else if s.cycle < p.nextStart then s
    else s.beginQuantum p v

/-- R351: QUANTUM_BOUNDARY. -/
def execQuantumBoundary (part : Nat) (s : State) : Host.Outcome State Fault Refusal :=
  .next (match s.part? part with
    | none => s
    | some p => if s.ctl.sec.quiesced then s else s.quantum p)

/-! ## Held reflection records (R363) -/

/-- R363: the oldest record held for a context placed in its ring, if there is room. [log 101 DEDUCED] -/
def State.placeHeld (s : State) (ctx : Nat) : State :=
  let c := s.ctx ctx
  match c.held with
  | [] => s
  | bs :: rest => match ringPutCtx s ctx c.rring 5 bs with
    | some s => (s.updCtx ctx fun c => { c with held := rest }).setEvent ctx c.evb
    | none => s

/-- R363, R365: the oldest record held for a partition's hypervisor ring placed, if there is room. -/
def State.placeHeldPart (s : State) (part : Nat) : State :=
  match s.part? part with
  | none => s
  | some p => match p.held with
    | [] => s
    | bs :: rest => match ringPutPhys s p.spec.ring 5 bs with
      | some s => s.updPart part fun p => { p with held := rest }
      | none => s

/-- R363: REFLECTION_RECORD: a held record of a context's ring is placed, or else one of its partition's. -/
def execReflectionRecord (ctx : Nat) (s : State) : Host.Outcome State Fault Refusal :=
  .next (if (s.ctx ctx).held = [] then s.placeHeldPart (s.ctx ctx).part else s.placeHeld ctx)

end Sys2Proof.Machine
end

