-- ==== Sys2Proof/Machine/Xalholt.lean ====
section
/-! DEFINITION. The Xalholt instructions of the management cores, their waits and timers, and the dispatches (R394 to R401). -/
namespace Sys2Proof.Machine

/-! ## Registers and exceptions of a core (R394, R396) -/

/-- The management core whose instruction is executed. -/
def State.core (s : State) : Core := s.mcore s.cd s.ci

/-- That core changed. -/
def State.updCoreCur (s : State) (f : Core → Core) : State := s.updCore s.cd s.ci f

/-- R395: x0 reads as zero. -/
def Core.readX (c : Core) (n : Reg) : Dbl := if n = 0 then 0 else c.x[n.toNat]'(n.isLt)

/-- R395: a write to x0 is discarded. -/
def Core.writeX (c : Core) (n : Reg) (v : Dbl) : Core := if n = 0 then c else { c with x := c.x.set n.toNat v n.isLt }

/-- The core past its instruction. -/
def Core.advance (c : Core) : Core := { c with pc := c.pc + 4 }

/-- R394, R396: a synchronous exception: the core continues in machine mode at the base of its trap vector. -/
def Core.trap (c : Core) (cause : Nat) (tval : Dbl) : Core :=
  { c with mepc := c.pc, mcause := BitVec.ofNat 64 cause, mtval := tval, machineMode := true, prior := c.machineMode, waiting := none,
           pc := c.mtvec &&& ~~~(3 : Dbl) }

/-- R394, R396: an exception of the core whose instruction is executed. -/
def State.coreTrap (s : State) (cause : Nat) (tval : Dbl) : State := s.updCoreCur (·.trap cause tval)

/-- A result written, and the core past its instruction. -/
def State.coreDone (s : State) (d : Reg) (v : Dbl) : State := s.updCoreCur fun c => (c.writeX d v).advance

/-- R394: a Xalholt instruction outside machine mode raises mcause 2. -/
def inMachineMode (i : Instr) (s : State) (f : State → Host.Outcome State Fault Refusal) : Host.Outcome State Fault Refusal :=
  if s.core.machineMode then f s else .next (s.coreTrap 2 (wordArg i))

/-! ## RFETCH (R397) -/

/-- R397: the entry size of a ring, from its LOG2E. -/
def ringShift (w1 : Nat) : Nat := if w1 / 2 ^ 8 % 8 = 0 then 6 else w1 / 2 ^ 8 % 8

/-- R397: a ring descriptor that RFETCH refuses. -/
def ringBad (m : Mem) (d : Nat) : Bool :=
  let base := m.readN d 8
  let w1 := m.readN (d + 8) 8
  let n := w1 % 32
  let e := w1 / 2 ^ 8 % 8
  base == 0 || base % 2 ^ ringShift w1 != 0 || n < 4 || 16 < n || e == 1 || e == 2 || e == 7
    || w1 / 2 ^ 5 % 8 != 0 || w1 / 2 ^ 11 != 0
    || decide (2 ^ n < (m.readN (d + 24) 8 + 2 ^ 64 - m.readN (d + 16) 8) % 2 ^ 64)

/-- R397: the entry taken: its address, and the state with HEAD moved. -/
def ringTake (s : State) (d : Nat) : Dbl × State :=
  let head := s.mem.readN (d + 16) 8
  let w1 := s.mem.readN (d + 8) 8
  if head = s.mem.readN (d + 24) 8 then (0, s)
  else (BitVec.ofNat 64 (s.mem.readN d 8 + head % 2 ^ (w1 % 32) * 2 ^ ringShift w1), s.store (d + 16) 8 ((head + 1) % 2 ^ 64))

/-- R397: RFETCH. [log 102 DEDUCED] -/
def execRfetch (r d : Reg) (s : State) : Host.Outcome State Fault Refusal :=
  inMachineMode (.rfetch r d) s fun s =>
    let a := s.core.readX r
    if a.toNat % 32 ≠ 0 then .next (s.coreTrap 24 a)
    else if !populated a.toNat then .fault (.unpopulated a.toNat)
    else if !(s.controlReaches s.cd a.toNat) then .next s
    else if ringBad s.mem a.toNat then .next (s.coreTrap 24 a)
    else
      let (v, s) := ringTake s a.toNat
      .next (s.coreDone d v)

/-! ## BFX (R398) -/

/-- R398: BFX. -/
def execBfx (l p : BitVec 6) (r d : Reg) (s : State) : Host.Outcome State Fault Refusal :=
  inMachineMode (.bfx l p r d) s fun s =>
    let len := l.toNat + 1
    if 64 < p.toNat + len then .next (s.coreTrap 25 (BitVec.ofNat 64 (p.toNat + len)))
    else .next (s.coreDone d (BitVec.ofNat 64 ((s.core.readX r).toNat / 2 ^ p.toNat % 2 ^ len)))

/-! ## SWAIT and the timer (R399, R400) -/

/-- R399: the signals that are routed to a core. -/
def routedMask (c : Fin 8) : Dbl :=
  (List.range 16).foldl (fun m b => if routedTo b (roleOf c) then m ||| BitVec.ofNat 64 (2 ^ b) else m) 0

/-- R399: a wait that ends with signals pending: they are read and cleared in one step. -/
def Core.swaitDone (c : Core) (mask : Dbl) (d : Reg) : Core :=
  ({ c with pending := c.pending &&& ~~~mask, waiting := none }.writeX d (c.pending &&& mask)).advance

/-- R399: SWAIT. -/
def execSwait (t r d : Reg) (s : State) : Host.Outcome State Fault Refusal :=
  inMachineMode (.swait t r d) s fun s =>
    let c := s.core
    let mask := c.readX r
    let lim := c.readX t
    .next (if mask &&& ~~~(routedMask s.ci) ≠ 0 || (mask = 0 && lim = 0) then s.coreTrap 26 mask
      else if c.pending &&& mask ≠ 0 then s.updCoreCur (·.swaitDone mask d)
      else s.updCoreCur fun c =>
        { c with waiting := some { mask := mask, rd := d, deadline := if lim = 0 then none else some (c.mcycle + lim.toNat) } })

/-- R399: a wait that its deadline ends. -/
def Core.swaitOver (c : Core) (d : Reg) : Core := ({ c with waiting := none }.writeX d 0).advance

/-- R399: a wait that a signal or its deadline ends in this cycle. -/
def Core.wake (c : Core) : Core :=
  match c.waiting with
  | none => c
  | some w =>
    if c.pending &&& w.mask != 0 then c.swaitDone w.mask w.rd
    else match w.deadline with
    | some t => if t ≤ c.mcycle then c.swaitOver w.rd else c
    | none => c

/-- R400: TIMER set where the compare register is due, which then reads 0. -/
def Core.expire (c : Core) : Core :=
  if c.xtimecmp ≠ 0 && c.xtimecmp.toNat ≤ c.mcycle then { c with xtimecmp := 0 }.pend 15 else c

/-- A core that works: its die has not failed, and its firmware has been released. -/
def State.coreAlive (s : State) (d : Fin 2) (c : Fin 8) : Bool := !(s.cdie d).failed && !(s.mcore d c).held

/-- R399: SWAIT_WAKE. -/
def execSwaitWake (cdie core : Nat) (s : State) : Host.Outcome State Fault Refusal :=
  let d : Fin 2 := Fin.ofNat 2 cdie
  let k : Fin 8 := Fin.ofNat 8 core
  let c := s.mcore d k
  .next (match c.waiting with
    | none => s
    | some w => if s.coreAlive d k && c.pending &&& w.mask != 0 then s.updCore d k (·.swaitDone w.mask w.rd) else s)

/-- R399: SWAIT_TIMEOUT. -/
def execSwaitTimeout (cdie core : Nat) (s : State) : Host.Outcome State Fault Refusal :=
  let d : Fin 2 := Fin.ofNat 2 cdie
  let k : Fin 8 := Fin.ofNat 8 core
  let c := s.mcore d k
  .next (match c.waiting with
    | none => s
    | some w => match w.deadline with
      | none => s
      | some t =>
        if s.coreAlive d k && c.pending &&& w.mask == 0 && decide (t ≤ c.mcycle) then
          s.updCore d k (·.swaitOver w.rd)
        else s)

/-- R400: XTIMECMP_WRITE; outside machine mode it raises mcause 2, with the word of the CSR instruction, a free value, in
mtval. -/
def execXtimecmpWrite (cdie core : Nat) (v : Dbl) (s : State) : Host.Outcome State Fault Refusal :=
  let d : Fin 2 := Fin.ofNat 2 cdie
  let k : Fin 8 := Fin.ofNat 8 core
  .next (if !(s.coreAlive d k) then s
    else if (s.mcore d k).machineMode then s.updCore d k fun c => { c with xtimecmp := v }
    else
      let (x, s) := s.free
      s.updCore d k (·.trap 2 (BitVec.ofNat 64 (x % 2 ^ 32))))

/-- R400: TIMER_EXPIRY. -/
def execTimerExpiry (cdie core : Nat) (s : State) : Host.Outcome State Fault Refusal :=
  .next (s.updCore (Fin.ofNat 2 cdie) (Fin.ofNat 8 core) (·.expire))

/-! ## DISP (R401) -/

/-- R401: the dispatch of a block. -/
def dispatchAt (m : Mem) (a : Nat) : Dispatch :=
  let w := m.dbl a
  { kind := bits w 0 3, die := bits w 3 3, blk := bits w 6 4, slot := bits w 10 2, ctx := bits w 12 12, rect := m.word (a + 8),
    addr := m.dbl (a + 0x10), arg := m.dbl (a + 0x18) }

/-- R401: the act context that a dispatch names. -/
def Dispatch.id (x : Dispatch) : Nat := mkActId x.die x.blk x.slot

/-- R401: the rectangle that a dispatch names. -/
def Dispatch.box (x : Dispatch) : RegionSt := rectRegion x.die x.rect

/-- R401: a dispatch block with no reserved bit set, a KIND, a rectangle on the die, and the prompter of its north-west tile. -/
def dispatchOk (m : Mem) (a : Nat) : Bool :=
  let x := dispatchAt m a
  bits (m.dbl a) 24 40 == 0 && x.kind < 4 && m.readN (a + 12) 4 == 0 && x.rect.extractLsb' 16 15 == 0
    && (List.range 4).all (fun k => m.dbl (a + 0x20 + 8 * k) == 0)
    && (x.kind == 0 || (if x.kind = 3 then bits x.arg 6 58 == 0 else x.arg == 0))
    && rectFits x.rect && blockOf x.box.x0 x.box.y0 == x.blk

/-- R401: the rectangle of a dispatch is held by its context. -/
def rectHeld (s : State) (x : Dispatch) : Bool :=
  match rectOf (s.ctx x.ctx) x.die with
  | some q => rectWithin x.box.rect q
  | none => false

/-- R356, R365: a START or RESTORE may take the rectangle: no child of its context holds a tile of it, and its partition holds every one. -/
def startHeld (s : State) (x : Dispatch) : Bool := s.ownTag x.ctx x.box.tiles && s.notMoved x.ctx x.die x.box.rect

/-- R401: an act context that no act and no launch holds. -/
def contextFree (s : State) (id : Nat) : Bool := (s.act id).life == .free && !(s.pendingPlaces.any fun q => placeAct q == id)

/-- R401: the saved act in the green room that a dispatch names. -/
def roomOf (s : State) (x : Dispatch) : Option GreenRoom :=
  s.sch.green.find? fun g => g.addr == x.addr && g.act.ctx == x.ctx && (s.act g.act.id).life == .switchedOut

/-- R401: a dispatch for the same act context that has not taken effect. -/
def dispatchPends (s : State) (id : Nat) : Bool :=
  s.ctl.dies.any fun d => d.cores.any fun c => c.dispatches.any fun y => y.id == id && y.kind != 3

/-- R401: a rectangle that no act stands on. -/
def boxEmpty (s : State) (x : Dispatch) : Bool :=
  s.acts.all (fun p => !p.2.present || p.2.region.die != x.die || !(rectsMeet x.box.rect p.2.region.rect))
    && s.pendingHere.all fun q => q.die != x.die || !(rectsMeet x.box.rect (placeRect q))

/-- R401: status 1 or 2 of a dispatch, or 0. [log 103 DEDUCED] -/
def dispatchStatus (s : State) (x : Dispatch) : Nat :=
  if !(rectHeld s x) || (x.kind != 1 && !(startHeld s x)) then 2
  else match x.kind with
  | 0 => if contextFree s x.id && boxEmpty s x && !(dispatchPends s x.id) then 0 else 1
  | 1 =>
    let a := s.act x.id
    if dispatchPends s x.id || (a.present && a.leaving) then 1
    else if a.present && a.ctx == x.ctx && a.region.die == x.die && a.region.rect == x.box.rect then 0 else 2
  | 2 =>
    match roomOf s x with
    | none => if (s.act x.id).present || dispatchPends s x.id then 1 else 0
    | some g =>
      if (g.act.id == x.id || contextFree s x.id) && !(dispatchPends s x.id) && g.act.region.w == x.box.w
          && g.act.region.h == x.box.h && g.act.region.die == x.die && s.mayPlace g.act.id x.box.x0 x.box.y0 then 0 else 1
  | _ => if s.bound (.ctx (s.rootOf x.ctx) (bits x.arg 0 6)) then 0 else 1

/-- R401: DISP. -/
def execDisp (r d : Reg) (s : State) : Host.Outcome State Fault Refusal :=
  inMachineMode (.disp r d) s fun s =>
    let a := s.core.readX r
    if a.toNat % 64 ≠ 0 then .next (s.coreTrap 27 a)
    else if !populated a.toNat then .fault (.unpopulated a.toNat)
    else if !(s.controlReaches s.cd a.toNat) || !(s.joinsFabric s.cd) then .next s
    else if !(dispatchOk s.mem a.toNat) then .next (s.coreTrap 27 a)
    else
      let x := dispatchAt s.mem a.toNat
      let st := dispatchStatus s x
      let s := if st = 0 then s.updCoreCur fun c => { c with dispatches := c.dispatches ++ [x] } else s
      .next (s.coreDone d (BitVec.ofNat 64 st))

/-! ## Dispatches that take effect (R401) -/

/-- R399, R401: a dispatch of a core has taken effect; DDONE is routed to scheduler cores only. -/
def State.dispatched (s : State) (d : Fin 2) (k : Fin 8) (x : Dispatch) : State :=
  s.updCore d k fun c =>
    let c := { c with dispatches := c.dispatches.erase x }
    if routedTo 2 (roleOf k) then c.pend 2 else c

/-- R401, R406: the first dispatch of a kind that a core has placed, given to `f`; `none` leaves it for later, as does a die that is cut off
from the fabric. [log 104 DEDUCED] -/
def takeDispatch (s : State) (cdie core kind : Nat) (f : State → Dispatch → Option State) : State :=
  let d : Fin 2 := Fin.ofNat 2 cdie
  let k : Fin 8 := Fin.ofNat 8 core
  match (s.mcore d k).dispatches.find? fun x => x.kind == kind with
  | none => s
  | some x => match if s.joinsFabric d then f s x else none with
    | none => s
    | some s => s.dispatched d k x

/-- R325, R337 step 6: the act that a START dispatch starts. Its slots are those whose words stand in every tile. -/
def startAct (s : State) (x : Dispatch) : Act :=
  let r := x.box
  let full (k : Nat) : Bool := r.tiles.all fun t => (s.cfg t k).isSome
  let slot (k : Nat) : SceneSlot :=
    { st := if k = 0 then .inForce else if full k then .loaded else .empty, image := 0, ends := 0, error := none, job := none }
  { Act.empty x.id with
    life := .running, ctx := x.ctx, pflim := (s.ctx x.ctx).pflim, prevStamp := (s.ctx x.ctx).highest,
    region := { r with slots := Vector.ofFn fun k : Fin 4 => slot k.val },
    regs := ({ Regs.zero with acpc := x.addr &&& ~~~(3 : Dbl) }).writeG 1 x.arg }

/-- R268, R365, R401: the effect of a START dispatch, once its rectangle and the wings of its domain are there. -/
def State.startDispatch (s : State) (x : Dispatch) : Option State :=
  if !(contextFree s x.id) || !(boxEmpty s x) || !(startHeld s x) || !(s.wingsReady x.ctx x.die) then none
  else
    let s := ((s.freshCircuits x.box).setAct (startAct s x)).giveWings x.ctx x.die
    let g := s.agenGates x.id
    let s := s.updAct x.id fun a => a.updRegion fun r => { r with gates := g }
    some ((s.launchPoint x.id).grantTokens x.id)

/-- R401, R424: DISPATCH_START; nothing is dispatched while a level-2 alarm holds. -/
def execDispatchStart (cdie core : Nat) (s : State) : Host.Outcome State Fault Refusal :=
  .next (takeDispatch s cdie core 0 fun s x => if s.ctl.sec.quiesced then none else s.startDispatch x)

/-- R370, R401: DISPATCH_CURTAIN: the switch-out of an act, for a quantum, into the green room named. -/
def execDispatchCurtain (cdie core : Nat) (s : State) : Host.Outcome State Fault Refusal :=
  .next (takeDispatch s cdie core 1 fun s x =>
    if (s.act x.id).present then some ((s.updAct x.id fun a => { a with room := some x.addr }).switchOut x.id 0) else some s)

/-- R372, R383, R401: the effect of a RESTORE dispatch. Where no saved act of the context stands in the green room named, its
chunks do not authenticate. [log 104 DEDUCED] -/
def State.restoreDispatch (s : State) (x : Dispatch) : Option State :=
  match roomOf s x with
  | none => some (s.failRestore x.ctx x.id 0x51 x.addr.toNat)
  | some g =>
    if !(s.mayPlace g.act.id x.box.x0 x.box.y0) then none
    else some ((s.renameAct g.act.id x.id).restore x.id x.box.x0 x.box.y0)

/-- R372: DISPATCH_RESTORE. -/
def execDispatchRestore (cdie core : Nat) (s : State) : Host.Outcome State Fault Refusal :=
  .next (takeDispatch s cdie core 2 fun s x => if s.ctl.sec.quiesced then none else s.restoreDispatch x)

/-- The chain node that a dispatch names. -/
def chainNode (s : State) (x : Dispatch) : Option (Graph × Nat × GNode) :=
  (s.sch.graphs.flatMap fun g => (List.range g.nodes.length).filterMap fun n => (g.nodes[n]?).map fun y => (g, n, y)).find? fun p =>
    p.1.ctx == x.ctx && p.2.2.kind == 2 && p.2.2.payload == x.addr && nodeReady s p.1 p.2.2

/-- R345, R401: the effect of a CHAIN dispatch: the block is read, and the node handed to the queue named. A node that is not ready is
waited for. -/
def State.chainDispatch (s : State) (x : Dispatch) : Option State :=
  match chainNode s x with
  | none => none
  | some (g, n, y) => match readPair s x.ctx x.addr with
    | .got p s => s.dispatchChain g n y { chainBlock p with queue := bits x.arg 0 6 }
    | .wait _ => none
    | .fail c a s => some ((s.openNodeTask g y).markDispatched g.id n (some (c, a)))

/-- R345, R424: DISPATCH_CHAIN. -/
def execDispatchChain (cdie core : Nat) (s : State) : Host.Outcome State Fault Refusal :=
  .next (takeDispatch s cdie core 3 fun s x => if s.ctl.sec.quiesced then none else s.chainDispatch x)

end Sys2Proof.Machine
end

