-- ==== Sys2Proof/Machine/Clock.lean ====
section
/-! DEFINITION. One cycle of the fabric clock (R5): credits and tokens that fall due (R58, R61), the watchdog's count of
stalled cycles (R379) and the cycles of the management cores (R399). -/
namespace Sys2Proof.Machine

/-- R379: whether a cause of exclusion holds for the region of act `id` in this cycle. [log 113 DEDUCED] -/
def watchExcluded (s : State) (id : Nat) : Bool :=
  let a := s.act id
  a.refusing || !a.present || (a.region.tiles.any fun t => s.point t == 3) ||
  s.eng.queues.any fun q => (match s.serverOf q.1 with
      | some (.agen die k) => a.region.holds { die := die, tile := 256 + k }
      | _ => false) && match q.2.active with
    | some x => x.withheld.isSome
    | none => false

/-- R379: the cycle that ends counted for the region of an act: `excl` tells that a cause of exclusion holds and `data` that an
element holds a data token at the head of a named input. -/
def Act.watch (a : Act) (now : Nat) (excl data : Bool) : Act :=
  let stalled := !a.progress && data && !excl
  { a with
    stalled := if excl || stalled then a.stalled + 1 else 0
    lastStall := if stalled then some now else a.lastStall
    refusing := false, progress := false, excluded := excl }

/-- R379: the cycle that ends counted for every act. -/
def State.watchAll (s : State) : State :=
  { s with acts := s.acts.map fun p =>
      (p.1, p.2.watch s.cycle (watchExcluded s p.1) ((s.ownTiles p.1).any (dataAtHead s))) }

/-- R58: a credit that has come back can be used. -/
def landCredit (ws : List (Link × Nat)) (l : Link) : List (Link × Nat) :=
  let n := tally l ws
  if n ≤ 1 then ws.filter (·.1 != l) else assocSet l (n - 1) ws

/-- R58: the credits that are due by this cycle. -/
def State.landCredits (s : State) : State :=
  let ws := (s.fab.returns.filter fun r => decide (r.1 ≤ s.cycle)).foldl (fun ws r => landCredit ws r.2) s.fab.windows
  { s with fab := { s.fab with windows := ws, returns := s.fab.returns.filter fun r => decide (s.cycle < r.1) } }

/-- R57, R61: the tiles with tokens to place place them. Where circuits that share a connection ask for it in one cycle, the turn
decides; what no turn has given away goes to those that can still use it. [log 124 DESIGN CHOICE] -/
def State.sendAll (s : State) : State :=
  let ts := (s.fab.tiles.filter fun p => p.2.outq != []).map (·.1)
  let asks := ts.flatMap s.asksOf ++ s.fab.asked
  let s := ts.foldl (fun s t => s.sendTile t asks) s
  (ts.foldl (fun s t => s.sendTile t s.fab.asked) s).passSources

/-- R1, R399: the cycle count of a core with `n` cycles in 23 fabric cycles, at the fabric cycle `now` that ends: 20 at the 2.0 GHz of a
management core, 30 at the 3.0 GHz of an application core. [log 114 DEDUCED] -/
def Core.count (c : Core) (n now : Nat) : Core :=
  { c with mcycle := c.mcycle + ((now + 1) * n / 23 - now * n / 23) }

/-- R1, R399, R400: the cycle counts of the cores, and on a die that works the timers and waits that are over. -/
def State.countCores (s : State) : State :=
  let dies := s.ctl.dies.map fun d =>
    { d with cores := d.cores.map fun c => if d.failed then c.count 20 s.cycle else (c.count 20 s.cycle).expire.wake, apps := d.apps.map fun c => c.count 30 s.cycle }
  { s with ctl := { s.ctl with dies := dies } }

/-- R5: the cycle number advanced. -/
def State.nextCycle (s : State) : State := { s with cycle := s.cycle + 1 }

/-- R5: one fabric cycle passes. -/
def State.tick (s : State) : State :=
  s.endAlarms.requestAll.sendMarkers.drainAll.watchAll.countCores.nextCycle.clearWires.landCredits.strikeLate.sendAll.reapAll.finishRevokes.endSwitches.passPages.storeLate

end Sys2Proof.Machine
end

