-- ==== Sys2Proof/Machine/Amo.lean ====
section
/-! DEFINITION. The AMO group (R144, R145) and the service of the atomic engines (R293). -/
namespace Sys2Proof.Machine

/-- R144: AADD. -/
def execAadd (d a b : Reg) (w : Bool) (s : State) : Host.Outcome State Fault Refusal :=
  .next ((atomicAt (.aadd d a b w) s .add w d a b).finish d)

/-- R144: AAND. -/
def execAand (d a b : Reg) (w : Bool) (s : State) : Host.Outcome State Fault Refusal :=
  .next ((atomicAt (.aand d a b w) s .and w d a b).finish d)

/-- R144: AOR. -/
def execAor (d a b : Reg) (w : Bool) (s : State) : Host.Outcome State Fault Refusal :=
  .next ((atomicAt (.aor d a b w) s .or w d a b).finish d)

/-- R144: AXOR. -/
def execAxor (d a b : Reg) (w : Bool) (s : State) : Host.Outcome State Fault Refusal :=
  .next ((atomicAt (.axor d a b w) s .xor w d a b).finish d)

/-- R144: AMIN. -/
def execAmin (d a b : Reg) (w : Bool) (s : State) : Host.Outcome State Fault Refusal :=
  .next ((atomicAt (.amin d a b w) s .min w d a b).finish d)

/-- R144: AMAX. -/
def execAmax (d a b : Reg) (w : Bool) (s : State) : Host.Outcome State Fault Refusal :=
  .next ((atomicAt (.amax d a b w) s .max w d a b).finish d)

/-- R144: AMINZ. -/
def execAminz (d a b : Reg) (w : Bool) (s : State) : Host.Outcome State Fault Refusal :=
  .next ((atomicAt (.aminz d a b w) s .minz w d a b).finish d)

/-- R144: AMAXZ. -/
def execAmaxz (d a b : Reg) (w : Bool) (s : State) : Host.Outcome State Fault Refusal :=
  .next ((atomicAt (.amaxz d a b w) s .maxz w d a b).finish d)

/-- R144: ASWAP. -/
def execAswap (d a b : Reg) (w : Bool) (s : State) : Host.Outcome State Fault Refusal :=
  .next ((atomicAt (.aswap d a b w) s .swap w d a b).finish d)

/-- R144: ACAS. -/
def execAcas (d a b : Reg) (w : Bool) (s : State) : Host.Outcome State Fault Refusal :=
  .next ((atomicAt (.acas d a b w) s .cas w d a b).finish d)

/-- R293: ATOMIC_ENGINE_SERVICE: the engine of a block performs the lowest request that waits at it. -/
def execAtomicEngineService (die blk : Nat) (s : State) : Host.Outcome State Fault Refusal :=
  .next (s.serviceAtomic die blk)

end Sys2Proof.Machine
end

