-- ==== Sys2Proof/Machine/Branch.lean ====
section
/-! DEFINITION. Branches, jumps and zero-overhead loops (R128 to R130). -/
namespace Sys2Proof.Machine

/-- R128: a conditional branch. -/
def branchIf (s : State) (p : Bool) (o : BitVec 11) : Host.Outcome State Fault Refusal :=
  .next (if p then s.jumpTo (s.branchTarget o) else s.retire)

/-- R128: B.EQ. -/
def execBEq (a b : Reg) (o : BitVec 11) (s : State) : Host.Outcome State Fault Refusal :=
  branchIf s (s.g a == s.g b) o

/-- R128: B.NE. -/
def execBNe (a b : Reg) (o : BitVec 11) (s : State) : Host.Outcome State Fault Refusal :=
  branchIf s (s.g a != s.g b) o

/-- R128: B.LT, signed. -/
def execBLt (a b : Reg) (o : BitVec 11) (s : State) : Host.Outcome State Fault Refusal :=
  branchIf s ((s.g a).slt (s.g b)) o

/-- R128: B.GE, signed. -/
def execBGe (a b : Reg) (o : BitVec 11) (s : State) : Host.Outcome State Fault Refusal :=
  branchIf s (!(s.g a).slt (s.g b)) o

/-- R128: B.LTZ, unsigned. -/
def execBLtz (a b : Reg) (o : BitVec 11) (s : State) : Host.Outcome State Fault Refusal :=
  branchIf s ((s.g a).ult (s.g b)) o

/-- R128: B.GEZ, unsigned. -/
def execBGez (a b : Reg) (o : BitVec 11) (s : State) : Host.Outcome State Fault Refusal :=
  branchIf s (!(s.g a).ult (s.g b)) o

/-- R128: JAL. -/
def execJal (d : Reg) (i : BitVec 21) (s : State) : Host.Outcome State Fault Refusal :=
  .next ((s.setG d (s.cur.regs.acpc + 4)).jumpTo (s.jalTarget i))

/-- R128: JR; a target that is not a multiple of 4 raises 0x03. [log 21 DEDUCED] -/
def execJr (d a : Reg) (i : BitVec 16) (s : State) : Host.Outcome State Fault Refusal :=
  let t := s.ea a i
  .next (if t.toNat % 4 ≠ 0 then s.trap 0x03 t else (s.setG d (s.cur.regs.acpc + 4)).jumpTo t)

/-- R129: the checks of LOOP and LOOPI at `pc`. -/
def loopOk (r : Regs) (pc : Dbl) (l : Lvl) (n : Nat) : Bool :=
  !r.faultH && !r.lb[l.val].on &&
  match r.innermost r.activeLevels with
  | none => true
  | some k => r.inBody k (pc + 4) && r.inBody k (pc + BitVec.ofNat 64 (4 * n)) &&
      decide ((pc + BitVec.ofNat 64 (4 * n)).toNat < r.lbase.toNat + 4 * 255)

/-- R130: the registers after a LOOP or LOOPI at ACPC with `count` above 0. -/
def Regs.openLoop (r : Regs) (l : Lvl) (count : W32) (len : BitVec 8) : Regs :=
  let body := r.acpc + 4
  let base := if r.looping then r.lbase else body
  { r with
    lbase := base, acpc := body,
    lb := r.lb.set l.val
      { count := count, len := len, start := BitVec.ofNat 8 ((body - base).toNat / 4), on := true },
    lc := r.lc.set l.val 0 }

/-- R129, R130: LOOP and LOOPI with a count of `count`; a count of 0 skips the body (A16, DEDUCED). -/
def loopInstr (i : Instr) (s : State) (l : BitVec 2) (count : Nat) (len : BitVec 8) : State :=
  let r := s.cur.regs
  let k : Lvl := Fin.ofNat 3 l.toNat
  if 2 ^ 32 ≤ count || !loopOk r r.acpc k len.toNat then s.trap 0x01 (wordArg i)
  else if count = 0 then s.updCur fun a => a.updRegs fun r =>
    { r with acpc := r.acpc + BitVec.ofNat 64 (4 * len.toNat) + 4 }
  else
    let s := s.updCur fun a => a.updRegs fun r => r.openLoop k (BitVec.ofNat 32 count) len
    if r.looping then s else fillLoop s s.me (r.acpc + 4) len.toNat

/-- R129, R130: LOOP. -/
def execLoop (l : BitVec 2) (a : Reg) (n : BitVec 8) (s : State) : Host.Outcome State Fault Refusal :=
  .next (loopInstr (.loop l a n) s l (s.g a).toNat n)

/-- R129, R130: LOOPI. -/
def execLoopi (l : BitVec 2) (c : BitVec 16) (n : BitVec 8) (s : State) : Host.Outcome State Fault Refusal :=
  .next (loopInstr (.loopi l c n) s l c.toNat n)

end Sys2Proof.Machine
end

