-- ==== Sys2Proof/Machine/Loads.lean ====
section
/-! DEFINITION. Loads and stores of the prompter (R123 to R127). -/
namespace Sys2Proof.Machine

/-- R123: an instruction that loads `n` bytes and extends them. -/
def loadInstr (i : Instr) (s : State) (d : Reg) (ea : Dbl) (n : Nat) (ext : Dbl → Dbl) :
    Host.Outcome State Fault Refusal :=
  .next ((needTask i s fun s => (loadAt s ea n).andThen fun s v => .done s (ext v)).finish d)

/-- R123: an instruction that stores the low `n` bytes of a value. -/
def storeInstr (i : Instr) (s : State) (ea : Dbl) (n v : Nat) : Host.Outcome State Fault Refusal :=
  .next (needTask i s fun s => storeAt s ea n v).end

/-- R123: the low `n` bits of a value sign-extended. -/
def sextN (n : Nat) (v : Dbl) : Dbl := (v.extractLsb' 0 n).signExtend 64

/-- R75: the register after an even one, which LDQ and STQ pair with it. -/
def nextReg (d : Reg) : Reg := d ||| 1

/-- R123: LDB. -/
def execLdb (d a : Reg) (i : BitVec 16) (s : State) : Host.Outcome State Fault Refusal :=
  loadInstr (.ldb d a i) s d (s.ea a i) 1 (sextN 8)

/-- R123: LDH. -/
def execLdh (d a : Reg) (i : BitVec 16) (s : State) : Host.Outcome State Fault Refusal :=
  loadInstr (.ldh d a i) s d (s.ea a i) 2 (sextN 16)

/-- R123: LDW. -/
def execLdw (d a : Reg) (i : BitVec 16) (s : State) : Host.Outcome State Fault Refusal :=
  loadInstr (.ldw d a i) s d (s.ea a i) 4 (sextN 32)

/-- R123: LDD. -/
def execLdd (d a : Reg) (i : BitVec 16) (s : State) : Host.Outcome State Fault Refusal :=
  loadInstr (.ldd d a i) s d (s.ea a i) 8 id

/-- R123: LDBZ. -/
def execLdbz (d a : Reg) (i : BitVec 16) (s : State) : Host.Outcome State Fault Refusal :=
  loadInstr (.ldbz d a i) s d (s.ea a i) 1 id

/-- R123: LDHZ. -/
def execLdhz (d a : Reg) (i : BitVec 16) (s : State) : Host.Outcome State Fault Refusal :=
  loadInstr (.ldhz d a i) s d (s.ea a i) 2 id

/-- R123: LDWZ. -/
def execLdwz (d a : Reg) (i : BitVec 16) (s : State) : Host.Outcome State Fault Refusal :=
  loadInstr (.ldwz d a i) s d (s.ea a i) 4 id

/-- R123: STB. -/
def execStb (d a : Reg) (i : BitVec 16) (s : State) : Host.Outcome State Fault Refusal :=
  storeInstr (.stb d a i) s (s.ea a i) 1 (s.g d).toNat

/-- R123: STH. -/
def execSth (d a : Reg) (i : BitVec 16) (s : State) : Host.Outcome State Fault Refusal :=
  storeInstr (.sth d a i) s (s.ea a i) 2 (s.g d).toNat

/-- R123: STW. -/
def execStw (d a : Reg) (i : BitVec 16) (s : State) : Host.Outcome State Fault Refusal :=
  storeInstr (.stw d a i) s (s.ea a i) 4 (s.g d).toNat

/-- R123: STD. -/
def execStd (d a : Reg) (i : BitVec 16) (s : State) : Host.Outcome State Fault Refusal :=
  storeInstr (.std d a i) s (s.ea a i) 8 (s.g d).toNat

/-- R123, R127: STQ. -/
def execStq (d a : Reg) (i : BitVec 16) (s : State) : Host.Outcome State Fault Refusal :=
  storeInstr (.stq d a i) s (s.ea a i) 16 ((s.g d).toNat + 2 ^ 64 * (s.g (nextReg d)).toNat)

/-- R123, R127: a 16-byte load at `ea`: the upper double goes to the register after `d`, and the lower one is the result. -/
def loadPair (s : State) (d : Reg) (ea : Dbl) : Did :=
  match promptAccess s ea 16 .read with
  | (.wait, s) => .wait s
  | (.fault c a, s) => .trap s c a
  | (.ok pa, s) =>
    if stagedBad (taskOf s s.cur) ea.toNat 16 then .trap s 0x50 (BitVec.ofNat 64 pa)
    else
    let upper : Dbl := BitVec.ofNat 64 (readMerged s.mem (taskOf s s.cur) (ea.toNat + 8) (pa + 8) 8)
    .done ((s.recordPrompter s.me false ea 16).setG (nextReg d) upper)
      (BitVec.ofNat 64 (readMerged s.mem (taskOf s s.cur) ea.toNat pa 8))

/-- R123: LDQ. -/
def execLdq (d a : Reg) (i : BitVec 16) (s : State) : Host.Outcome State Fault Refusal :=
  let ea := s.ea a i
  .next ((needTask (.ldq d a i) s fun s => loadPair s d ea).finish d)

end Sys2Proof.Machine
end

