-- ==== Sys2Proof/Machine/Manage.lean ====
section
/-! DEFINITION. Heartbeats, fences and adoption, power requests, shares and time sources (R403 to R412, R416). -/
namespace Sys2Proof.Machine

/-! ## Links between dies (R10, R11) -/

/-- R10: the dies joined to a die by a link. -/
def joined (die : Nat) : List Nat :=
  match die with
  | 8 => [0, 4]
  | 9 => [3, 7]
  | _ => (List.range 4).filterMap (dieBeside die) ++
      (if die = 0 || die = 4 then [8] else if die = 3 || die = 7 then [9] else [])

/-- The dies reached in `n` links from those of a list, never through `not`. -/
def reach (s : State) (not : Nat) : Nat → List Nat → List Nat
  | 0, l => l
  | n + 1, l =>
    let more := l.flatMap fun a => (joined a).filter fun b => s.linkUp a b && b != not && !(l.contains b)
    reach s not n (l ++ more.eraseDups)

/-! ## Heartbeats (R404) -/

/-- R404: the 100 µs boundary at which the present cycle lies, if it does. [log 105 DEDUCED] -/
def beatBoundary (s : State) : Option Nat := if s.cycle % 230000 = 0 then some (s.cycle / 230000) else none

/-- The peer of a control die. -/
def peerOf (d : Fin 2) : Fin 2 := if d = 0 then 1 else 0

/-- R404: whether scheduler core 0 of a control die works. -/
def State.beats (s : State) (d : Fin 2) : Bool := s.coreAlive d 0

/-- R404: HEARTBEAT_SEND, once at each boundary, over both rows. -/
def execHeartbeatSend (cdie : Nat) (s : State) : Host.Outcome State Fault Refusal :=
  let d : Fin 2 := Fin.ofNat 2 cdie
  .next (match beatBoundary s with
    | none => s
    | some b =>
      if !(s.beats d) || b < (s.cdie d).sent then s
      else
        let s := s.updCDie d fun x => { x with sent := b + 1 }
        let rows := [0, 1].filter s.rowUp
        let beats := rows.map fun r => ((peerOf d).val, b, r)
        { s with ctl := { s.ctl with beats := s.ctl.beats ++ beats } })

/-- R404, R399: HEARTBEAT_ARRIVAL: a beat on its way to a control die arrives. -/
def execHeartbeatArrival (cdie : Nat) (s : State) : Host.Outcome State Fault Refusal :=
  let d : Fin 2 := Fin.ofNat 2 cdie
  .next (match s.ctl.beats.find? fun b => b.1 == d.val with
    | none => s
    | some b =>
      let s := { s with ctl := { s.ctl with beats := s.ctl.beats.erase b } }
      s.updCDie d fun x => { x with beat := true, misses := 0 }.signal 8)

/-! ## Fences (R406, R408) -/

/-- R408: the resources of a fenced control die are lost: its Ethernet ports, and the host port if it is CDW. -/
def State.loseDie (s : State) (d : Fin 2) : State :=
  let eth := s.ctl.eth.map fun p => if p.port / 4 = d.val then { p with up := false } else p
  { s with ctl := { s.ctl with eth := eth, hostUp := s.ctl.hostUp && d != 0 } }

/-- R406: a fence applied by a fabric die: the beats on their way over its link are dropped. -/
def State.fence (s : State) (die : Nat) (d : Fin 2) : State :=
  if s.ctl.fences.contains (die, 8 + d.val) then s
  else { s with ctl := { s.ctl with
    fences := s.ctl.fences ++ [(die, 8 + d.val)], beats := s.ctl.beats.filter (·.2.2 ≠ die / 4) } }.loseDie d

/-- R406: the understudy `d` fences its peer: CDW at once, and CDE with a hold of 100 µs. One that reaches neither fabric die raises
a level-2 alarm. -/
def State.orderFence (s : State) (d : Fin 2) : State :=
  let p := peerOf d
  let got := reach s (8 + p.val) 10 [8 + d.val]
  let ts := (attached p).filter got.contains
  if ts = [] then s.raiseAlarm 2 5
  else if d = 0 then ts.foldl (fun s t => s.fence t p) s
  else { s with ctl := { s.ctl with heldFences := s.ctl.heldFences ++ ts.map fun t => (t, s.cycle + 230000) } }

/-- R404: HEARTBEAT_MISS: at a boundary the receiver counts a miss if no beat has come since the last; the third makes it the
understudy. -/
def execHeartbeatMiss (cdie : Nat) (s : State) : Host.Outcome State Fault Refusal :=
  let d : Fin 2 := Fin.ofNat 2 cdie
  .next (match beatBoundary s with
    | none => s
    | some b =>
      if b = 0 || !(s.beats d) || b ≤ (s.cdie d).checked then s
      else if (s.cdie d).beat then s.updCDie d fun x => { x with checked := b, beat := false }
      else
        let s := s.updCDie d fun x => { x with checked := b, misses := x.misses + 1 }
        if (s.cdie d).misses = 3 && !(s.cdie d).understudy then
          (s.updCDie d fun x => { x with understudy := true }).orderFence d
        else s)

/-- R406: FENCE_HOLD_EXPIRY: a fence from CDE that a fabric die has held for 100 µs takes effect, unless a fabric die has fenced CDE. -/
def execFenceHoldExpiry (die : Nat) (s : State) : Host.Outcome State Fault Refusal :=
  .next (match s.ctl.heldFences.find? fun f => f.1 == die with
    | none => s
    | some f =>
      let gone := { s with ctl := { s.ctl with heldFences := s.ctl.heldFences.erase f } }
      if s.ctl.fences.any (·.2 == 9) then gone
      else if s.cycle < f.2 then s
      else gone.fence die 0)

/-! ## Adoption (R407) -/

/-- R407 step 3: the page requests that are still unanswered posted again to the understudy's page service. -/
def State.repostPages (s : State) : State := s.eng.pages.foldl (fun s p => (s.passPage p).signal 5) s

/-- R407: the understudy takes the failed die's work over: where that die has served the contexts, unanswered page requests are posted
again, and launches not yet running wait again. Counts and acts stand as they are. It becomes power master (R409). [log 105 DEDUCED] -/
def State.adopt (s : State) (d : Fin 2) : State :=
  let s := s.updCDie d fun x => { x with adopted := true }
  -- CDE has served none while CDW works: CDW's own requests and launches go on.
  let s := if d = 0 then s.reapAll else
    let s := s.reapAll.repostPages
    s.unplaced.foldl (fun s l => s.relaunch l) s
  let s := { s with ctl := { s.ctl with power := { s.ctl.power with master := d.val } } }
  (s.countPkg 0x80 1).raiseAlarm 1 7

/-- R407: ADOPTION, once the fence is in effect. -/
def execAdoption (cdie : Nat) (s : State) : Host.Outcome State Fault Refusal :=
  let d : Fin 2 := Fin.ofNat 2 cdie
  .next (if (s.cdie d).understudy && !(s.cdie d).adopted && s.ctl.fences.any (·.2 == 8 + (peerOf d).val) then s.adopt d else s)

/-- R404: CONTROL_DIE_FAILURE: a control die stops. -/
def execControlDieFailure (cdie : Nat) (s : State) : Host.Outcome State Fault Refusal :=
  .next (s.updCDie (Fin.ofNat 2 cdie) fun x => { x with failed := true })

/-! ## Power requests and shares (R410, R412) -/

/-- R410: a cap, bounded, that governs from the second interval boundary on. -/
def State.requestCap (s : State) (mw : Nat) : State :=
  let cap := Nat.min 600000 (Nat.max 90000 mw)
  let p := s.ctl.power
  let s := { s with ctl := { s.ctl with power := { p with caps := p.caps ++ [(s.interval + 2, cap)] } } }
  if mw < 90000 then s.raiseAlarm 1 6 else s

/-- R412: the shares that other partitions have of a stack. -/
def sharesBeside (s : State) (part stack : Nat) : Nat :=
  ((s.sch.parts.filter fun p => p.id != part).map fun p => tally stack p.shares).foldl (· + ·) 0

/-- R412: a share is taken while the shares of the stack sum to at most 256. -/
def State.requestShare (s : State) (part stack share : Nat) : State :=
  if stack < 8 && sharesBeside s part stack + share ≤ 256 then
    s.updPart part fun p => { p with shares := assocSet stack share p.shares }.scaleShare stack (tally stack s.ctl.power.thermal)
  else s

/-- R410: a power request as an entry of the power core's ring: its kind and its value. -/
def powerBytes (kind value : Nat) : List Byte := leBytes 8 (kind % 256) ++ leBytes 8 value

/-- R410: the requests of a power ring taken, at most `n`: caps, and shares, whose value the manual does not lay out. -/
def takeRequests (ring : Nat) : Nat → State → State
  | 0, s => s
  | n + 1, s =>
    let (a, t) := ringTake s ring
    let v := s.mem.readN (a.toNat + 8) 8
    let x := Config.shareOf v
    takeRequests ring n (match (s.mem.read a.toNat).toNat with
      | 1 => t.requestCap v
      | 2 => t.requestShare x.1 x.2.1 x.2.2
      | _ => t)

/-- R410: a request placed in the power master's ring, and taken after those before it; `f` tells what it does. It waits while the ring
cannot be reached or is full. A boot record that names no ring leaves the request by itself. [log 106 DEDUCED] -/
def State.powerRequest (s : State) (kind value : Nat) (f : State → State) : State :=
  if s.ctl.sec.locked then s
  else
    let ring := (s.cdie (Fin.ofNat 2 s.ctl.power.master)).powerRing
    if ring = 0 then f (s.signal 11)
    else match ringPutPhys s ring 4 (powerBytes kind value) with
    | none => s
    | some t =>
      let t := takeRequests ring ((s.mem.readN (ring + 24) 8 + 2 ^ 64 - s.mem.readN (ring + 16) 8) % 2 ^ 64) (t.signal 11)
      f (t.ringPop ring)

/-- R410: POWER_CAP_REQUEST. [log 106 DEDUCED] -/
def execPowerCapRequest (mw : Nat) (s : State) : Host.Outcome State Fault Refusal :=
  .next (s.powerRequest 1 mw fun s => s.requestCap mw)

/-- R410, R412: BANDWIDTH_SHARE_REQUEST. -/
def execBandwidthShareRequest (part stack share : Nat) (s : State) : Host.Outcome State Fault Refusal :=
  .next (s.powerRequest 2 (Config.shareValue part stack share) fun s => s.requestShare part stack share)

/-! ## Time sources (R21, R416) -/

/-- The bell changed. -/
def State.updBell (s : State) (f : Bell → Bell) : State := { s with ctl := { s.ctl with bell := f s.ctl.bell } }

/-- R21, R416: the selected source is lost: the generators hold over. -/
def State.loseTime (s : State) : State :=
  if s.ctl.bell.holdover then s else ((s.updBell fun b => { b with holdover := true }).countPkg 0x81 1).signal 13

/-- R21, R416: the selected source is there again: the generators slew until they are aligned again, for as many slots as a free
value says. -/
def State.regainTime (s : State) : State :=
  if !s.ctl.bell.holdover then s
  else
    let (n, s) := s.free
    (s.updBell fun b => { b with holdover := false, slew := n }).signal 13

/-- R416: TIME_SOURCE_LOSS: the selected source is lost. -/
def execTimeSourceLoss (s : State) : Host.Outcome State Fault Refusal := .next s.loseTime

/-- R416: TIME_SOURCE_RETURN: the selected source is there again. -/
def execTimeSourceReturn (s : State) : Host.Outcome State Fault Refusal := .next s.regainTime

/-- R21: the signals of a time source return (`up`) or are lost; those of a source that is not selected steer nothing. -/
def State.timeSignal (s : State) (src : Nat) (up : Bool) : State :=
  if src = s.ctl.bell.source then (if up then s.regainTime else s.loseTime)
  else s.updBell fun b => { b with lost := if up then b.lost.filter (· != src) else b.lost.insert src }

/-- R21: firmware selects a time source; where its signals are lost the generators hold over. -/
def State.selectTime (s : State) (src : Nat) : State :=
  let b := s.ctl.bell
  if src = b.source then s
  else
    let gone := b.lost.contains src
    let lost := (if b.holdover then b.lost.insert b.source else b.lost).filter (· != src)
    let s := s.updBell fun b => { b with source := src, lost := lost }
    if gone then s.loseTime else s.regainTime

end Sys2Proof.Machine
end

