-- ==== Sys2Proof/Machine/Security.lean ====
section
/-! DEFINITION. Alarm triggers and the release, fuse requests, and attestation (R419, R421 to R425). -/
namespace Sys2Proof.Machine

/-! ## Triggers (R423) -/

/-- R423: TAMPER. -/
def execTamper (s : State) : Host.Outcome State Fault Refusal := .next (s.raiseAlarm 3 1)

/-- R423: SUPPLY_GLITCH: level 3 when a second glitch follows within 1 s. -/
def execSupplyGlitch (s : State) : Host.Outcome State Fault Refusal :=
  let again := match s.ctl.sec.lastGlitch with
    | some t => decide (s.cycle ≤ t + 2300000000)
    | none => false
  .next ((s.updSec fun x => { x with lastGlitch := some s.cycle }).raiseAlarm (if again then 3 else 2) 2)

/-! ## Signed requests (R418, R419, R424) -/

/-- R418: a signed request: the bytes covered, and the signature block behind them. -/
def signedOk (x : Security) (req : List Byte) : Bool :=
  sigVerifies x (req.take (req.length - 1852)) (req.drop (req.length - 1852)) false

/-- R424: what follows a release: the acts that the alarm took out go back. -/
def State.release (s : State) : State :=
  let s := s.updSec fun x => { x with quiesced := false, level := 0 }
  (s.sch.green.foldl (fun s g =>
    if g.reason = 5 && s.hasQuantum g.act.id then s.restoreHome g.act.id else s) s).restoreDrained

/-- R424: ALARM_RELEASE: a signed request ends a level-2 quiesce. [log 107 DEDUCED] -/
def execAlarmRelease (req : List Byte) (s : State) : Host.Outcome State Fault Refusal :=
  .next (if !s.ctl.sec.quiesced || s.ctl.sec.locked then s
    else if signedOk s.ctl.sec req then s.release else s.signatureFailure)

/-- R419: a key slot programmed, if it is empty, or revoked for good. -/
def Security.fuse (x : Security) (lms : Bool) (slot : Nat) (revoke : Bool) (key : List Byte) : Security :=
  let here (k : KeySlot) : Bool := k.lms == lms && k.slot == slot
  if x.keys.any here then
    { x with keys := x.keys.map fun k => if here k && revoke then { k with revoked := true } else k }
  else { x with keys := x.keys ++ [{ lms := lms, slot := slot, key := if revoke then [] else key, revoked := revoke }] }

/-- R419: FUSE_REQUEST: a signed request of the owner programs or revokes a key slot. -/
def execFuseRequest (lms : Bool) (slot : Nat) (revoke : Bool) (key req : List Byte) (s : State) :
    Host.Outcome State Fault Refusal :=
  .next (if s.ctl.sec.locked || 8 ≤ slot then s
    else if signedOk s.ctl.sec req && req.take (req.length - 1852) == Config.fuseForm lms slot revoke key then
      s.updSec fun x => x.fuse lms slot revoke key
    else s.signatureFailure)

/-! ## Attestation (R421) -/

/-- R421: the bytes of a key slot in measurement block 4. -/
def slotBytes (x : Security) (lms : Bool) (slot : Nat) : List Byte :=
  match x.keys.find? fun k => k.lms == lms && k.slot == slot with
  | some k => k.key ++ [if k.revoked then 1 else 0]
  | none => [0]

/-- R421: a measurement block of a control die. -/
def measurement (s : State) (d : Fin 2) (index : Nat) : List Byte :=
  let x := s.ctl.sec
  match index with
  | 1 => ((s.cdie d).measured[0]?).getD []
  | 2 => ((s.cdie d).measured[1]?).getD []
  | 3 => ((s.cdie d).measured[2]?).getD []
  | 4 => Config.sha384 (((List.range 8).flatMap (slotBytes x false)) ++ (List.range 8).flatMap (slotBytes x true))
  | 5 => leBytes 8 s.rmap ++ Config.sha384 (mapBytes s.fab.repair)
  | 6 => [0x4F, 0x41, 0x2D, 0x31] ++ leBytes 2 1 ++ leBytes 1 1
  | 7 => leBytes 1 x.highest ++ x.svn.flatMap (fun p => leBytes 1 p.1 ++ leBytes 2 p.2)
      ++ (x.refusals.filter (·.1 == d.val)).flatMap fun p => leBytes 1 p.2
  | _ => []

/-- R421: where a request comes from: the hypervisor's ring, or PCIe DOE on the host port. -/
def State.spdmReaches (s : State) (ring : Bool) : Bool := ring || (s.ctl.hostAttached && s.ctl.hostUp)

/-- R421: the control die whose security core answers: CDW on the host port, and the one that serves the package on the hypervisor's ring. [log 108 DEDUCED] -/
def State.responder (s : State) (ring : Bool) : Fin 2 := if ring then s.leader else 0

/-- R421, R422: the security core answers a request, if it works; a signed response carries the signature of its identity key while the key
store has it. [log 108 DEDUCED] -/
def State.spdm (s : State) (ring : Bool) (code : Nat) (blocks : List (List Byte)) (nonce : List Byte) (signed : Bool) : State :=
  let d := s.responder ring
  if !(s.spdmReaches ring) || !(s.securityAlive d) then s
  else
    let r := Config.spdmResponse code blocks nonce
    let r := if signed && (s.cdie d).keys.identity then r ++ Config.identitySign d.val r else r
    s.updSec fun x => { x with lastResponse := r }

/-- R421: GET_VERSION. -/
def execGetVersion (ring : Bool) (s : State) : Host.Outcome State Fault Refusal := .next (s.spdm ring 0x84 [] [] false)

/-- R421: GET_CAPABILITIES. -/
def execGetCapabilities (ring : Bool) (s : State) : Host.Outcome State Fault Refusal := .next (s.spdm ring 0xE1 [] [] false)

/-- R421: NEGOTIATE_ALGORITHMS: P-384 with SHA-384 is the only signing algorithm, and SHA-384 the only hash; each is selected when it
is offered. -/
def execNegotiateAlgorithms (ring p384 sha384 : Bool) (s : State) : Host.Outcome State Fault Refusal :=
  .next (s.spdm ring 0xE3 [[if p384 then 1 else 0], [if sha384 then 1 else 0]] [] false)

/-- R421: GET_DIGESTS. -/
def execGetDigests (ring : Bool) (s : State) : Host.Outcome State Fault Refusal := .next (s.spdm ring 0x81 [] [] false)

/-- R421: GET_CERTIFICATE. -/
def execGetCertificate (ring : Bool) (s : State) : Host.Outcome State Fault Refusal := .next (s.spdm ring 0x82 [] [] false)

/-- R421: CHALLENGE. -/
def execChallenge (ring : Bool) (nonce : List Byte) (s : State) : Host.Outcome State Fault Refusal :=
  .next (s.spdm ring 0x83 ((List.range 7).map fun k => measurement s (s.responder ring) (k + 1)) nonce true)

/-- R421: GET_MEASUREMENTS, of one block, or of all for index 0xFF. -/
def execGetMeasurements (ring : Bool) (index : Nat) (nonce : List Byte) (s : State) : Host.Outcome State Fault Refusal :=
  let d := s.responder ring
  let blocks := if index = 0xFF then (List.range 7).map fun k => measurement s d (k + 1) else [measurement s d index]
  .next (s.spdm ring 0xE0 blocks nonce true)

end Sys2Proof.Machine
end

