-- ==== Sys2Proof/Machine/Ports.lean ====
section
/-! DEFINITION. Scrubs, resets and the boot, ports, links between dies, partitions and virtual devices (R10, R11, R18 to R20, R364 to R366,
R420, R427 to R431). -/
namespace Sys2Proof.Machine

/-! ## Scrubs (R427, R428, R431) -/

/-- R428: an error counted for a partition, where one holds the place, and for its die. [log 111 DEDUCED] -/
def State.countError (s : State) (part : Option Nat) (die id : Nat) : State :=
  let s := match part with
    | some p => s.countPart p id 1
    | none => s
  s.countPkg (0x10000 * (die + 1) + id) 1

/-- R428: the partition of a scrubbed granule: that of the tile, or of the window that holds the address; none for a free or gated
bank. -/
def State.scrubPart (s : State) (t : ScrubTarget) : Option Nat :=
  match t with
  | .bank die b _ =>
    match (s.bank (bankKey die b)).use with
    | .gated => none
    | .free => none
    | _ => (s.tile { die := die, tile := 256 + b / 8 }).tag
  | .slot t _ _ => (s.tile t).tag
  | .shadow t => (s.tile t).tag
  | .prompter id => (s.tile { die := (s.act id).region.die, tile := tileIndex (s.act id).region.x0 (s.act id).region.y0 }).tag
  | .hbm g => (s.sch.parts.find? fun p => decide (p.spec.base ≤ 32 * g) && decide (32 * g < p.spec.base + p.spec.length)).map (·.id)

/-- The die of a scrubbed granule. -/
def scrubDie (t : ScrubTarget) : Nat :=
  match t with
  | .bank die _ _ => die
  | .slot t _ _ => t.die
  | .shadow t => t.die
  | .prompter id => actDie id
  | .hbm g => 32 * g / 2 ^ 40

/-- R433: the counter of correctable errors of a structure. -/
def scrubCounter (t : ScrubTarget) : Nat :=
  match t with
  | .hbm _ => 0x72
  | .bank _ _ _ => 0x73
  | .slot _ _ _ => 0x74
  | .shadow _ => 0x75
  | .prompter _ => 0x75

/-- R429: the element of a structure as a word of the repair map; HBM4 has none, nor has a port tile's shadow. -/
def scrubWord (t : ScrubTarget) : Option W32 :=
  let w (die kind tile unit : Nat) : W32 := BitVec.ofNat 32 (die * 2 ^ 29 + kind * 2 ^ 27 + tile * 2 ^ 15 + unit * 2 ^ 11)
  match t with
  | .bank die b _ => some (w die 1 (256 + b / 8) (b % 8))
  | .slot t k _ => some (w t.die 2 t.tile k)
  | .shadow t => if t.tile < 256 then some (w t.die 0 t.tile 0) else none
  | .prompter _ => none
  | .hbm _ => none

/-- R427: an uncorrectable granule is poisoned. [log 109 DESIGN CHOICE] -/
def State.poison (s : State) (t : ScrubTarget) : State :=
  match t with
  | .bank die b g =>
    let x := s.bank (bankKey die b)
    { s with fab := { s.fab with banks := assocSet (bankKey die b) { x with poison := x.poison.insert g } s.fab.banks } }
  | .slot t k g => s.updTile t fun x =>
      { x with slots := (List.range 16).map fun j =>
          if j = k then { x.opSlot j with poison := (x.opSlot j).poison.insert g } else x.opSlot j }
  | .shadow t => s.updTile t fun x => { x with shadowBad := true }
  | .prompter id => { s with fab := { s.fab with badShadows := s.fab.badShadows.insert id } }
  | .hbm g => { s with fab := { s.fab with hbmPoison := s.fab.hbmPoison.insert g } }

/-- R427, R428: what a scrub, or an access, finds in a granule: an error is counted, and an uncorrectable granule is poisoned. -/
def State.find (s : State) (what : ScrubTarget) (found : ScrubFinding) : State :=
  match found with
  | .clean => s
  | .correctable => s.countError (s.scrubPart what) (scrubDie what) (scrubCounter what)
  | .uncorrectable =>
    let bad := match scrubWord what with
      | some w => s.fab.bad.insert w
      | none => s.fab.bad
    ({ s with fab := { s.fab with bad := bad } }.poison what).countError (s.scrubPart what) (scrubDie what) 0x78

/-- R427: SCRUB. [log 109 DESIGN CHOICE] -/
def execScrub (what : ScrubTarget) (found : ScrubFinding) (s : State) : Host.Outcome State Fault Refusal := .next (s.find what found)

/-! ## Errors that accesses meet (R426, R427) -/

/-- R428: the partition in whose window an address lies. -/
def State.windowPart (s : State) (pa : Nat) : Option Nat :=
  (s.sch.parts.find? fun p => decide (p.spec.base ≤ pa) && decide (pa < p.spec.base + p.spec.length)).map (·.id)

/-- R426: the wing line of a task with an uncorrectable error in one granule. -/
def State.spoilLine (s : State) (ctx stamp line g : Nat) : State :=
  s.updTask ctx stamp fun t => { t with lines := t.lines.map fun l => if l.line = line then { l with bad := l.bad.insert g } else l }

/-- The die in whose wings a staged line stands. -/
def State.wingDie (s : State) (ctx stamp line : Nat) : Nat :=
  (((s.ctx ctx).tasks.find? fun t => t.stamp == stamp).bind fun t => (t.lines.find? fun l => l.line == line).map (·.die)).getD 0

/-- R426, R427: an error met in a structure. A correctable one is counted where R433 has a counter for the structure. A line of an atomic
line store or of a core cache that is lost leaves its granule of memory poisoned, and a collective whose buffer is stops. [log 109 DESIGN CHOICE] -/
def State.upset (s : State) (what : Upset) (found : ScrubFinding) : State :=
  match what, found with
  | _, .clean => s
  | .granule t, _ => s.find t found
  | .wing ctx stamp line _, .correctable => s.countError (some (s.ctx ctx).part) (s.wingDie ctx stamp line) 0x73
  | .wing ctx stamp line g, .uncorrectable =>
    (s.spoilLine ctx stamp line g).countError (some (s.ctx ctx).part) (s.wingDie ctx stamp line) 0x78
  | .memory _ _, .correctable => s
  | .memory die pa, .uncorrectable => (s.poisonAt pa).countError (s.windowPart pa) die 0x78
  | .collective _ _, .correctable => s
  | .collective die q, .uncorrectable =>
    match (s.queue q).entries with
    | [] => s
    | e :: _ =>
      let (x, s) := s.free
      ((s.abortColl fun p => p.q == q).stopQueue q e 0x50 (BitVec.ofNat 64 x)).countError (some (s.ctx e.ctx).part) die 0x78

/-! ## Resets and the boot (R18, R420, R431) -/

/-- R18: FABRIC_DIE_RESET. -/
def execFabricDieReset (die : Nat) (s : State) : Host.Outcome State Fault Refusal := .next (s.clearDie die)

/-- R429: a word put into a sorted list, once. -/
def insertWord (w : W32) : List W32 → List W32
  | [] => [w]
  | x :: l => if w = x then x :: l else if w < x then w :: x :: l else x :: insertWord w l

/-- R429: whether the repair map may take one more word. -/
def mapTakes (l : List W32) (w : W32) : Bool :=
  let same := (l.filter fun x => x.extractLsb' 27 5 == w.extractLsb' 27 5).length
  l.length < 256 && same < (if w.extractLsb' 27 2 == 0 then 4 else 16)

/-- R431: the soft list and the repair map at the boot. -/
def State.mapAtBoot (s : State) : List W32 × List W32 :=
  s.fab.bad.foldl (fun p w =>
    if p.2.contains w || !(mapTakes p.2 w) then p else (insertWord w p.1, insertWord w p.2)) (s.ctl.sec.softList, s.fab.repair)

/-- R417, R420: the firmware image offered for a core of a control die; 8 stands for the first stage of the application cores. -/
def imageOf (imgs : List Firmware) (die core : Nat) : List Byte :=
  ((imgs.find? fun f => f.die == die && f.core == core).map (·.bytes)).getD []

/-- R393, R419: the number of a core's role in the fuses: scheduler, translator, page service, power, security, application. [log 110 DEDUCED] -/
def roleNumber (core : Nat) : Nat :=
  if core < 2 then 0 else if core < 4 then 1 else if core < 6 then 2 else if core = 6 then 3 else if core = 7 then 4 else 5

/-- R418, R419: how the boot refuses a firmware image, and whether that counts as a signature failure: one whose SVN lies below the minimum
of its role does not. [log 110 DEDUCED] -/
def imageRefused (x : Security) (core : Nat) (bs : List Byte) : Option Bool :=
  let n := bs.length - 1852
  if leNat ((bs.drop n).take 8) / 2 ^ 48 < tally (roleNumber core) x.svn then some false
  else if sigVerifies x (bs.take n) (bs.drop n) true then none else some true

/-- R420: the images that the boot of a control die refuses, by die and core, and whether each counts: first that of the security core, and
if it is accepted those of the others. -/
def bootRefusals (x : Security) (imgs : List Firmware) (die : Nat) : List (Nat × Nat × Bool) :=
  match imageRefused x 7 (imageOf imgs die 7) with
  | some c => [(die, 7, c)]
  | none => [0, 1, 2, 3, 4, 5, 6, 8].filterMap fun k => (imageRefused x k (imageOf imgs die k)).map fun c => (die, k, c)

/-- R420: whether the boot leaves a core held: its image was refused, or that of its die's security core was. -/
def bootHolds (refused : List (Nat × Nat × Bool)) (die core : Nat) : Bool :=
  refused.any fun r => r.1 == die && (r.2.1 == core || r.2.1 == 7)

/-- R421: measurement blocks 1 to 3 of a control die. -/
def bootMeasured (imgs : List Firmware) (die : Nat) : List (List Byte) :=
  [Config.sha384 (Config.bootRom die ++ imageOf imgs die 7), (List.range 8).flatMap fun k => Config.sha384 (imageOf imgs die k),
    Config.sha384 (imageOf imgs die 8)]

/-- R420, R422: a control die after its boot. The identity key stays as it is. -/
def bootDie (old : CDie) (refused : List (Nat × Nat × Bool)) (imgs : List Firmware) (b : BootRecord) (die : Nat) : CDie :=
  { CDie.reset with
    cores := Vector.ofFn fun c : Fin 8 => { Core.reset with held := bootHolds refused die c.val }
    apps := Vector.replicate 16 { Core.reset with held := bootHolds refused die 8 }
    verifyRings := (b.verify.filter (·.1 == die)).map (·.2), pageRings := (b.pages[die]?).getD (0, 0),
    powerRing := (b.power[die]?).getD 0, keys := { identity := old.keys.identity, sessions := [], contexts := [] },
    measured := bootMeasured imgs die }

/-- What a package reset keeps: the fuses, the soft list, the highest alarm level, the erasure of the keys and the boot's refusals. -/
def Security.booted (x : Security) (refused : List (Nat × Nat × Bool)) (soft : List W32) (log : Nat) : Security :=
  { Security.reset with
    highest := x.highest, keysErased := x.keysErased, keys := x.keys, svn := x.svn, softList := soft, logRing := log,
    refusals := refused.map fun r => (r.1, r.2.1) }

/-- R417 to R420: a package reset: everything as at reset, and then the boot of both control dies with the images offered. [log 110 DEDUCED] -/
def State.packageReset (s : State) (imgs : List Firmware) (b : BootRecord) : State :=
  let (soft, map) := s.mapAtBoot
  let refused := (List.range 2).flatMap (bootRefusals s.ctl.sec imgs)
  let c := Ctl.reset
  let t := { State.reset with
    agenda := s.agenda, fresh := s.fresh, fab := { State.reset.fab with repair := map },
    ctl := { c with
      dies := Vector.ofFn fun d : Fin 2 => bootDie (s.cdie d) refused imgs b d.val,
      sec := s.ctl.sec.booted refused soft b.log, hostAttached := s.ctl.hostAttached,
      configRings := Vector.ofFn fun d : Fin 8 => (b.config[d.val]?).getD (0, 0) } }
  (refused.filter fun r => r.2.2).foldl (fun s _ => s.signatureFailure) t

/-- R420, R424: PACKAGE_RESET. After a level-3 alarm only a power cycle ends the reset in which the dies are held. -/
def execPackageReset (images : List Firmware) (boot : BootRecord) (s : State) : Host.Outcome State Fault Refusal :=
  .next (if s.ctl.sec.locked then s else s.packageReset images boot)

/-! ## Ports and links (R11, R19, R20) -/

/-- R19: ETH_FRAME: a port takes a frame of at most 9216 bytes, with the cycle as its time stamp for a 1588 event message. -/
def execEthFrame (port : Nat) (frame : List Byte) (ptpEvent : Bool) (s : State) : Host.Outcome State Fault Refusal :=
  let take (p : EthPort) : EthPort :=
    if p.port = port && p.up then { p with frames := p.frames ++ [(frame, if ptpEvent then some s.cycle else none)] } else p
  .next (if s.ctl.sec.quiesced || s.ctl.sec.locked || 9216 < frame.length || s.cdFailed (port / 4) then s
    else
      let eth := s.ctl.eth.map take
      { s with ctl := { s.ctl with eth := eth } })

/-- R20: HOST_ATTACH. -/
def execHostAttach (s : State) : Host.Outcome State Fault Refusal :=
  .next { s with ctl := { s.ctl with hostAttached := true } }

/-- R20: whether a function of the host port may reach `n` bytes at a physical address: the physical function all of them, and a virtual
function the window of its virtual device. -/
def hostMay (s : State) (fn pa n : Nat) : Bool :=
  if fn = 0 then true
  else match s.sch.vdevs.find? fun v => v.vf == some fn with
  | none => false
  | some v =>
    let c := s.ctx v.ctx
    decide (c.fb ≤ pa) && decide (pa + n ≤ c.fb + c.fl)

/-- R11, R20: HOST_PORT_ACCESS, by the port of CDW. A read changes nothing in the package; a write that no link carries waits. [log 122 DESIGN CHOICE] -/
def execHostPortAccess (fn pa : Nat) (write : Bool) (data : List Byte) (len : Nat) (s : State) : Host.Outcome State Fault Refusal :=
  let n := if write then data.length else len
  if !s.ctl.hostAttached || !s.ctl.hostUp || s.cdFailed 0 || s.ctl.sec.quiesced || s.ctl.sec.locked || !(hostMay s fn pa n) then .next s
  else if n = 0 then .next s
  else if !populated pa || !populated (pa + n - 1) then .fault (.unpopulated pa)
  else .next (if write && !s.fencedMem pa then s.storeFrom (some 0) pa data else s)

/-- R11: DIE_LINK_DOWN. -/
def execDieLinkDown (a b : Nat) (s : State) : Host.Outcome State Fault Refusal :=
  .next (if (joined a).contains b && !(s.ctl.linksDown.contains (a, b)) then
      { s with ctl := { s.ctl with linksDown := s.ctl.linksDown ++ [(a, b)] } }
    else s)

/-- R11: DIE_LINK_UP. -/
def execDieLinkUp (a b : Nat) (s : State) : Host.Outcome State Fault Refusal :=
  let left := s.ctl.linksDown.filter fun l => l != (a, b) && l != (b, a)
  .next { s with ctl := { s.ctl with linksDown := left } }

/-! ## Partitions (R365, R366, R414) -/

/-- R353: the region of a partition on a die, if it has one there. -/
def PartSpec.region? (p : PartSpec) (die : Nat) : Option RegionSt :=
  match p.rects[die]? with
  | some w => if w.getLsbD 31 then some (rectRegion die w) else none
  | none => none

/-- R365: whether a partition holds a tile. -/
def partHolds (p : PartSpec) (t : TileId) : Bool :=
  match PartSpec.region? p t.die with
  | some r => r.holds t
  | none => false

/-- R365, R414: attributes that the hypervisor may give a partition. -/
def partSpecOk (p : PartSpec) : Bool :=
  decide (p.rects.length ≤ 8) && p.rects.all (fun w => rectClean w && (!w.getLsbD 31 || rectFits w))
    && p.base % 4096 == 0 && p.length % 4096 == 0 && p.ring != 0 && decide (p.slotLen ≤ 16) && decide (p.stall ≤ 10000)
    && (p.symbols == 0 || p.symbols == 12 || p.symbols == 14)
    && (if p.slotLen = 0 then p.offset == 0 else decide (p.offset < 62500 * p.slotLen))

/-- The tiles of a fabric die. -/
def dieTiles (die : Nat) : List TileId := (List.range 320).map fun i => { die := die, tile := i }

/-- R365: no tile of a partition is shared with another. -/
def partsApart (s : State) (part : Nat) (p : PartSpec) : Bool :=
  s.sch.parts.all fun q => q.id == part || (List.range 8).all fun d => (dieTiles d).all fun t => !(partHolds p t && partHolds q.spec t)

/-- R414: two configurations of the bell are the same. -/
def sameBell (p q : PartSpec) : Bool := p.slotLen == q.slotLen && p.symbols == q.symbols && p.offset == q.offset

/-- R414: some symbol stroke of the slot that a partition is in has still to act. -/
def midSlot (s : State) (part : Nat) (p : PartSpec) : Bool :=
  s.ctl.bell.acted.any fun x => x.1 == part && x.2.2 % strokesOf p != 0

/-- R414: a bell configuration changes only between slots, and only while no act of the partition has ARM = 1. [log 112 DEDUCED] -/
def bellHeld (s : State) (part : Nat) (old new : Option PartSpec) : Bool :=
  match old with
  | none => false
  | some p =>
    (match new with
      | some q => !(sameBell p q)
      | none => true)
    && (midSlot s part p || s.acts.any fun a => a.2.life != .free && a.2.region.arm && (s.ctx a.2.ctx).part == part)

/-- R365: an act stands on a tile that a change touches: one of the old partition or of the new. -/
def changeTouched (s : State) (old new : Option PartSpec) : Bool :=
  let in? (p : Option PartSpec) (t : TileId) : Bool := match p with
    | some p => partHolds p t
    | none => false
  s.acts.any fun a => a.2.present && a.2.region.tiles.any fun t => in? old t || in? new t

/-- R366: the tiles of a partition take its tag, and those that leave it the unassigned tag. -/
def State.tagTiles (s : State) (part : Nat) (new : Option PartSpec) : State :=
  let holds (t : TileId) : Bool := match new with
    | some p => partHolds p t
    | none => false
  (List.range 8).foldl (fun s d => (dieTiles d).foldl (fun s t =>
    if holds t then s.updTile t fun x => { x with tag := some part }
    else if (s.tile t).tag = some part then s.updTile t fun x => { x with tag := none } else s) s) s

/-- R414: the cycle in which the slot that a partition is in ends; its new bell configuration counts from there. [log 82 DEDUCED] -/
def slotEnd (s : State) (part : Nat) : Nat :=
  match s.part? part, assoc? part s.ctl.bell.slots with
  | some q, some t => if slotCycles q.spec = 0 then 0 else t + (s.cycle + 1 - t + slotCycles q.spec - 1) / slotCycles q.spec * slotCycles q.spec
  | _, _ => 0

/-- R365: a partition with its attributes, new or changed. -/
def State.putPart (s : State) (part : Nat) (p : PartSpec) : State :=
  let new : Partition :=
    { id := part, spec := p, counters := [], held := [], shares := [], scaled := [], running := 0, quantumEnd := 0, nextStart := 0,
      switching := false, late := none, statusWritten := [] }
  let ps := if (s.part? part).isSome then s.sch.parts.map fun q => if q.id = part then { q with spec := p } else q
    else s.sch.parts ++ [new]
  let b := s.ctl.bell
  -- R414: another bell configuration begins with its own first stroke.
  let same := match s.part? part with
    | some q => sameBell q.spec p
    | none => false
  let first : List (Nat × Nat) := match b.edge with
    | some e => if p.slotLen = 0 then [] else [(part, firstStroke p e (Nat.max (s.cycle + 1) (slotEnd s part)))]
    | none => []
  let b := if same then b else { b with slots := b.slots.filter (·.1 ≠ part) ++ first, acted := b.acted.filter (·.1 ≠ part) }
  { s with sch := { s.sch with parts := ps }, ctl := { s.ctl with bell := b } }

/-- R365: PARTITION_CHANGE: the hypervisor creates or changes a partition, or ends one that holds no virtual device. [log 112 DEDUCED] -/
def execPartitionChange (part : Nat) (spec : Option PartSpec) (s : State) : Host.Outcome State Fault Refusal :=
  let old := (s.part? part).map (·.spec)
  .next (if 24 ≤ part || s.ctl.sec.locked || changeTouched s old spec || bellHeld s part old spec then s
    else match spec with
    | none =>
      if s.sch.vdevs.any (·.part == part) then s
      else (s.tagTiles part none).updBell (fun b =>
          { b with slots := b.slots.filter (·.1 ≠ part), acted := b.acted.filter (·.1 ≠ part) }) |> fun s =>
        { s with sch := { s.sch with parts := s.sch.parts.filter (·.id ≠ part) } }
    | some p =>
      if !(partSpecOk p) || !(partsApart s part p) then s else (s.tagTiles part (some p)).putPart part p)

/-! ## Virtual devices (R364) -/

/-- The doubles of a descriptor given as bytes. -/
def descWords (bs : List Byte) (k : Nat) : Dbl := BitVec.ofNat 64 (leNat ((bs.drop (8 * k)).take 8))

/-- R364: the rectangles of a virtual device lie within those of its partition. -/
def deviceRects (p : PartSpec) (w : Nat → Dbl) : Bool :=
  (List.range 8).all fun d => match rectOfWord (rectWord w 12 d) with
    | none => true
    | some r => match PartSpec.region? p d with
      | some q => rectWithin r q.rect
      | none => false

/-- R364: whether a virtual device may be created. -/
def deviceOk (s : State) (ctx : Nat) (p : Partition) (bs : List Byte) (quantum period : Nat) (vf : Option Nat) : Bool :=
  let w := descWords bs
  decide (s.sch.vdevs.length < 1024) && decide (ctx < 4096) && !(s.ctxs.any (·.1 == ctx)) && bs.length == 128 && descClean w
    && deviceRects p.spec w && decide ((w 1).toNat < p.spec.length) && bits (w 0) 0 10 ≤ 1000
    && decide (0 < quantum) && (period == 0 || (10 ≤ period && period ≤ 1000))
    && match vf with
      | none => true
      | some f => 1 ≤ f && f ≤ 1024 && !(s.sch.vdevs.any (·.vf == vf))

/-- R351, R364: a virtual device of a partition, in its round robin. -/
def State.addDevice (s : State) (v : VDev) : State :=
  let s := { s with sch := { s.sch with vdevs := s.sch.vdevs ++ [v] } }
  match s.part? v.part with
  | none => s
  | some p =>
    let vs := s.devicesOf p.id
    if vs.length = 1 then s.updPart p.id fun p => { p with running := v.ctx, switching := false }
    else if vs.length = 2 then
      match vs.find? (·.ctx == p.running) with
      | none => s
      | some r =>
        let q := s.cycle + quantumCycles p.spec r
        s.updPart p.id fun p => { p with quantumEnd := q, nextStart := q + gapCycles p.spec, switching := false }
    else s

/-- R364: VIRTUAL_DEVICE_CREATE: the hypervisor creates a virtual device with its descriptor, or ends one, which is revoked. -/
def execVirtualDeviceCreate (ctx part : Nat) (desc : Option (List Byte)) (quantum period : Nat) (vf : Option Nat) (traceRing : Nat)
    (traceMask : W32) (s : State) : Host.Outcome State Fault Refusal :=
  .next (if s.ctl.sec.locked then s else match desc with
    | none => if s.sch.vdevs.any (·.ctx == ctx) then (s.revokeFor ctx).finishRevokes else s
    | some bs => match s.part? part with
      | none => s
      | some p =>
        if !(deviceOk s ctx p bs quantum period vf) then s
        else
          let c := ctxOfDesc ctx none part 1 p.spec.base p.spec.length 20 (descWords bs)
          let us := if period = 0 then 100 else period
          let v : VDev :=
            { ctx := ctx, part := part, quantum := quantum, debt := 0, period := us, periodEnd := s.cycle + 2300 * us, vf := vf,
              traceRing := traceRing, traceMask := traceMask, lost := 0 }
          ({ s with ctxs := assocSet ctx c s.ctxs }.giveKey ctx).addDevice v)

end Sys2Proof.Machine
end

