-- ==== Sys2Proof/Machine/Sys.lean ====
section
/-! DEFINITION. TRAP, ERET, MFS, MTS, CNT and the illegal instruction (R81, R115 to R119, R160, R162, R163). -/
namespace Sys2Proof.Machine

/-- R160: TRAP. -/
def execTrap (n : BitVec 5) (s : State) : Host.Outcome State Fault Refusal :=
  .next (s.trap (0x80 + n.zeroExtend 8) 0)

/-- R118, R162: ERET; a loop state that breaks R129 raises 0x01 there, with FAULTPC unchanged. -/
def execEret (s : State) : Host.Outcome State Fault Refusal :=
  let r := s.cur.regs
  .next (if !r.faultH then s.trap 0x02 (wordArg .eret)
    else if !r.nested then s.trapAt s.me r.faultPc 0x01 (wordArg .eret)
    else s.returnFromTrap)

/-- R162: MFS. -/
def execMfs (d : Reg) (n : BitVec 16) (s : State) : Host.Outcome State Fault Refusal :=
  .next (s.setG d (readSys s n.toNat)).retire

/-- R117, R119, R162: MTS. -/
def execMts (a : Reg) (n : BitVec 16) (s : State) : Host.Outcome State Fault Refusal :=
  let v := s.g a
  .next (if sysReadOnly n.toNat || (sysLoopState n.toNat && !s.cur.regs.faultH) then s.trap 0x02 (wordArg (.mts a n))
    else (s.updCur fun x => x.updRegs (·.writeSys n.toNat v)).retire)

/-- R433: the identifiers of context counters. -/
def ctxCounters : List Nat :=
  [0x10, 0x11, 0x12, 0x20, 0x21, 0x30, 0x31, 0x32, 0x40, 0x41, 0x50, 0x51, 0x52, 0x53]

/-- R433: the identifiers of counters with partition scope. -/
def partCounters : List Nat := [0x70, 0x71, 0x72, 0x73, 0x74, 0x75, 0x76, 0x77, 0x78]

/-- R163, R432: the counter `n` as it stands for the act's current context. -/
def counterValue (s : State) (n : Nat) : Nat :=
  if ctxCounters.contains n then tally n s.curCtx.counters
  else if n = 0x60 then tally n (s.ctx (s.rootOf s.cur.ctx)).counters
  else if partCounters.contains n then
    match s.part? s.curCtx.part with
    | some p => tally n p.counters
    | none => 0
  else 0

/-- R163: CNT. -/
def execCnt (d : Reg) (i : BitVec 16) (s : State) : Host.Outcome State Fault Refusal :=
  .next (s.setG d (BitVec.ofNat 64 (counterValue s i.toNat))).retire

/-- R81: ILLEGAL_INSTRUCTION: the word traps, and no other state changes. -/
def execIllegalInstruction (w : BitVec 32) (s : State) : Host.Outcome State Fault Refusal :=
  .next (s.trap 0x01 (w.zeroExtend 64))

end Sys2Proof.Machine
end

