-- ==== Sys2Proof/Machine/Dispatch.lean ====
section
/-! DEFINITION. The dispatch: one arm for each constructor of Instr. -/
namespace Sys2Proof.Machine

def exec (i : Instr) (s : State) : Host.Outcome State Fault Refusal :=
  match i with
  | .add d a b sv w => Sys2Proof.Machine.execAdd d a b sv w s
  | .sub d a b sv w => Sys2Proof.Machine.execSub d a b sv w s
  | .and d a b => Sys2Proof.Machine.execAnd d a b s
  | .or d a b => Sys2Proof.Machine.execOr d a b s
  | .xor d a b => Sys2Proof.Machine.execXor d a b s
  | .shl d a b w => Sys2Proof.Machine.execShl d a b w s
  | .shr d a b w => Sys2Proof.Machine.execShr d a b w s
  | .sra d a b w => Sys2Proof.Machine.execSra d a b w s
  | .mul d a b sv w => Sys2Proof.Machine.execMul d a b sv w s
  | .mulh d a b => Sys2Proof.Machine.execMulh d a b s
  | .mulhz d a b => Sys2Proof.Machine.execMulhz d a b s
  | .div d a b => Sys2Proof.Machine.execDiv d a b s
  | .divz d a b => Sys2Proof.Machine.execDivz d a b s
  | .rem d a b => Sys2Proof.Machine.execRem d a b s
  | .remz d a b => Sys2Proof.Machine.execRemz d a b s
  | .min d a b => Sys2Proof.Machine.execMin d a b s
  | .max d a b => Sys2Proof.Machine.execMax d a b s
  | .minz d a b => Sys2Proof.Machine.execMinz d a b s
  | .maxz d a b => Sys2Proof.Machine.execMaxz d a b s
  | .slt d a b => Sys2Proof.Machine.execSlt d a b s
  | .sltz d a b => Sys2Proof.Machine.execSltz d a b s
  | .seq d a b => Sys2Proof.Machine.execSeq d a b s
  | .sne d a b => Sys2Proof.Machine.execSne d a b s
  | .clz d a => Sys2Proof.Machine.execClz d a s
  | .popc d a => Sys2Proof.Machine.execPopc d a s
  | .addi d a im => Sys2Proof.Machine.execAddi d a im s
  | .andi d a im => Sys2Proof.Machine.execAndi d a im s
  | .ori d a im => Sys2Proof.Machine.execOri d a im s
  | .xori d a im => Sys2Proof.Machine.execXori d a im s
  | .shli d a n => Sys2Proof.Machine.execShli d a n s
  | .shri d a n => Sys2Proof.Machine.execShri d a n s
  | .srai d a n => Sys2Proof.Machine.execSrai d a n s
  | .slti d a im => Sys2Proof.Machine.execSlti d a im s
  | .lui d im => Sys2Proof.Machine.execLui d im s
  | .ldb d a im => Sys2Proof.Machine.execLdb d a im s
  | .ldh d a im => Sys2Proof.Machine.execLdh d a im s
  | .ldw d a im => Sys2Proof.Machine.execLdw d a im s
  | .ldd d a im => Sys2Proof.Machine.execLdd d a im s
  | .ldbz d a im => Sys2Proof.Machine.execLdbz d a im s
  | .ldhz d a im => Sys2Proof.Machine.execLdhz d a im s
  | .ldwz d a im => Sys2Proof.Machine.execLdwz d a im s
  | .stb d a im => Sys2Proof.Machine.execStb d a im s
  | .sth d a im => Sys2Proof.Machine.execSth d a im s
  | .stw d a im => Sys2Proof.Machine.execStw d a im s
  | .std d a im => Sys2Proof.Machine.execStd d a im s
  | .stq d a im => Sys2Proof.Machine.execStq d a im s
  | .ldq d a im => Sys2Proof.Machine.execLdq d a im s
  | .bEq a b o => Sys2Proof.Machine.execBEq a b o s
  | .bNe a b o => Sys2Proof.Machine.execBNe a b o s
  | .bLt a b o => Sys2Proof.Machine.execBLt a b o s
  | .bGe a b o => Sys2Proof.Machine.execBGe a b o s
  | .bLtz a b o => Sys2Proof.Machine.execBLtz a b o s
  | .bGez a b o => Sys2Proof.Machine.execBGez a b o s
  | .jal d im => Sys2Proof.Machine.execJal d im s
  | .jr d a im => Sys2Proof.Machine.execJr d a im s
  | .loop l a n => Sys2Proof.Machine.execLoop l a n s
  | .loopi l c n => Sys2Proof.Machine.execLoopi l c n s
  | .sceneRun sv => Sys2Proof.Machine.execSceneRun sv s
  | .sceneLoad a sv => Sys2Proof.Machine.execSceneLoad a sv s
  | .sceneWait sv => Sys2Proof.Machine.execSceneWait sv s
  | .sceneSwap sv => Sys2Proof.Machine.execSceneSwap sv s
  | .sceneGate a o => Sys2Proof.Machine.execSceneGate a o s
  | .sceneCurt => Sys2Proof.Machine.execSceneCurt s
  | .sceneMark a => Sys2Proof.Machine.execSceneMark a s
  | .cmdPack a b c => Sys2Proof.Machine.execCmdPack a b c s
  | .cmdIssue c => Sys2Proof.Machine.execCmdIssue c s
  | .cmdAppend a c => Sys2Proof.Machine.execCmdAppend a c s
  | .cmdSeqw a b => Sys2Proof.Machine.execCmdSeqw a b s
  | .fenceQ a => Sys2Proof.Machine.execFenceQ a s
  | .fenceS sv => Sys2Proof.Machine.execFenceS sv s
  | .aadd d a b w => Sys2Proof.Machine.execAadd d a b w s
  | .aand d a b w => Sys2Proof.Machine.execAand d a b w s
  | .aor d a b w => Sys2Proof.Machine.execAor d a b w s
  | .axor d a b w => Sys2Proof.Machine.execAxor d a b w s
  | .amin d a b w => Sys2Proof.Machine.execAmin d a b w s
  | .amax d a b w => Sys2Proof.Machine.execAmax d a b w s
  | .aminz d a b w => Sys2Proof.Machine.execAminz d a b w s
  | .amaxz d a b w => Sys2Proof.Machine.execAmaxz d a b w s
  | .aswap d a b w => Sys2Proof.Machine.execAswap d a b w s
  | .acas d a b w => Sys2Proof.Machine.execAcas d a b w s
  | .taskSpawn a => Sys2Proof.Machine.execTaskSpawn a s
  | .taskStamp a => Sys2Proof.Machine.execTaskStamp a s
  | .taskDone => Sys2Proof.Machine.execTaskDone s
  | .barArrive b => Sys2Proof.Machine.execBarArrive b s
  | .barWait b => Sys2Proof.Machine.execBarWait b s
  | .evtSig e => Sys2Proof.Machine.execEvtSig e s
  | .evtWait e => Sys2Proof.Machine.execEvtWait e s
  | .barInit a b => Sys2Proof.Machine.execBarInit a b s
  | .cue a b im e => Sys2Proof.Machine.execCue a b im e s
  | .tidDef a n => Sys2Proof.Machine.execTidDef a n s
  | .tidGet a n => Sys2Proof.Machine.execTidGet a n s
  | .tidDrop n => Sys2Proof.Machine.execTidDrop n s
  | .opmClaim d a b => Sys2Proof.Machine.execOpmClaim d a b s
  | .opmRelease d a b => Sys2Proof.Machine.execOpmRelease d a b s
  | .ctxNew d a => Sys2Proof.Machine.execCtxNew d a s
  | .ctxGrant a b => Sys2Proof.Machine.execCtxGrant a b s
  | .ctxRevoke a => Sys2Proof.Machine.execCtxRevoke a s
  | .ctxEnter a => Sys2Proof.Machine.execCtxEnter a s
  | .ctxExit => Sys2Proof.Machine.execCtxExit s
  | .ctxStat d a => Sys2Proof.Machine.execCtxStat d a s
  | .trap n => Sys2Proof.Machine.execTrap n s
  | .eret => Sys2Proof.Machine.execEret s
  | .halt => Sys2Proof.Machine.execHalt s
  | .wait a => Sys2Proof.Machine.execWait a s
  | .mfs d n => Sys2Proof.Machine.execMfs d n s
  | .mts a n => Sys2Proof.Machine.execMts a n s
  | .cnt d im => Sys2Proof.Machine.execCnt d im s
  | .commandLeavesIssueBuffer act => Sys2Proof.Machine.execCommandLeavesIssueBuffer act s
  | .chainEntryRead q => Sys2Proof.Machine.execChainEntryRead q s
  | .rdLin q => Sys2Proof.Machine.execRdLin q s
  | .rdGath q => Sys2Proof.Machine.execRdGath q s
  | .wrLin q => Sys2Proof.Machine.execWrLin q s
  | .wrScat q => Sys2Proof.Machine.execWrScat q s
  | .rdOpm q => Sys2Proof.Machine.execRdOpm q s
  | .wrLog q => Sys2Proof.Machine.execWrLog q s
  | .cp q => Sys2Proof.Machine.execCp q s
  | .cp2d q => Sys2Proof.Machine.execCp2d q s
  | .fill q => Sys2Proof.Machine.execFill q s
  | .bcast q => Sys2Proof.Machine.execBcast q s
  | .colRed q => Sys2Proof.Machine.execColRed q s
  | .colGath q => Sys2Proof.Machine.execColGath q s
  | .colBar q => Sys2Proof.Machine.execColBar q s
  | .sig q => Sys2Proof.Machine.execSig q s
  | .link q => Sys2Proof.Machine.execLink q s
  | .qfence q => Sys2Proof.Machine.execQfence q s
  | .scale q => Sys2Proof.Machine.execScale q s
  | .commandCompletion q => Sys2Proof.Machine.execCommandCompletion q s
  | .readStreamToken q => Sys2Proof.Machine.execReadStreamToken q s
  | .writeStreamToken q => Sys2Proof.Machine.execWriteStreamToken q s
  | .streamCloseAtWrite q => Sys2Proof.Machine.execStreamCloseAtWrite q s
  | .pipelineFiring t => Sys2Proof.Machine.execPipelineFiring t s
  | .genStreamClose t => Sys2Proof.Machine.execGenStreamClose t s
  | .mm t => Sys2Proof.Machine.execMm t s
  | .mmSp t => Sys2Proof.Machine.execMmSp t s
  | .accClr t => Sys2Proof.Machine.execAccClr t s
  | .drain t => Sys2Proof.Machine.execDrain t s
  | .sat t => Sys2Proof.Machine.execSat t s
  | .zeroSlotRequest t inp => Sys2Proof.Machine.execZeroSlotRequest t inp s
  | .markerPassage t el => Sys2Proof.Machine.execMarkerPassage t el s
  | .scaleTokenForward t inp => Sys2Proof.Machine.execScaleTokenForward t inp s
  | .scaleTokenLatch t inp => Sys2Proof.Machine.execScaleTokenLatch t inp s
  | .regionEntryToken t inp => Sys2Proof.Machine.execRegionEntryToken t inp s
  | .hedge die => Sys2Proof.Machine.execHedge die s
  | .fusedTileDrop die => Sys2Proof.Machine.execFusedTileDrop die s
  | .misroutedTokenDrop die => Sys2Proof.Machine.execMisroutedTokenDrop die s
  | .markInsertion act => Sys2Proof.Machine.execMarkInsertion act s
  | .cutComplete act => Sys2Proof.Machine.execCutComplete act s
  | .rollback act code arg => Sys2Proof.Machine.execRollback act code arg s
  | .stallWatchdog act => Sys2Proof.Machine.execStallWatchdog act s
  | .pageFaultDrain act => Sys2Proof.Machine.execPageFaultDrain act s
  | .curtainComplete act => Sys2Proof.Machine.execCurtainComplete act s
  | .bankWake die bank => Sys2Proof.Machine.execBankWake die bank s
  | .slotStroke part die => Sys2Proof.Machine.execSlotStroke part die s
  | .symbolStroke part die j => Sys2Proof.Machine.execSymbolStroke part die j s
  | .standbyStrokeTakeover part die => Sys2Proof.Machine.execStandbyStrokeTakeover part die s
  | .powerIntervalBoundary budgets points levels => Sys2Proof.Machine.execPowerIntervalBoundary budgets points levels s
  | .atomicEngineService die blk => Sys2Proof.Machine.execAtomicEngineService die blk s
  | .taskBecomesOldest ctx => Sys2Proof.Machine.execTaskBecomesOldest ctx s
  | .taskCommit ctx => Sys2Proof.Machine.execTaskCommit ctx s
  | .pageTableWalk die ctx va => Sys2Proof.Machine.execPageTableWalk die ctx va s
  | .shootdownComplete ctx va len => Sys2Proof.Machine.execShootdownComplete ctx va len s
  | .pageAnswer tag refused => Sys2Proof.Machine.execPageAnswer tag refused s
  | .submissionDoorbell ctx => Sys2Proof.Machine.execSubmissionDoorbell ctx s
  | .launchRecord ctx => Sys2Proof.Machine.execLaunchRecord ctx s
  | .launchAdmission launch places => Sys2Proof.Machine.execLaunchAdmission launch places s
  | .tileAcknowledgement launch t => Sys2Proof.Machine.execTileAcknowledgement launch t s
  | .graphRecord ctx => Sys2Proof.Machine.execGraphRecord ctx s
  | .cancelRecord ctx => Sys2Proof.Machine.execCancelRecord ctx s
  | .queueResetRecord ctx => Sys2Proof.Machine.execQueueResetRecord ctx s
  | .nodeDispatch graph node => Sys2Proof.Machine.execNodeDispatch graph node s
  | .nodeCompletion graph node => Sys2Proof.Machine.execNodeCompletion graph node s
  | .prefault graph node => Sys2Proof.Machine.execPrefault graph node s
  | .crc graph node => Sys2Proof.Machine.execCrc graph node s
  | .qreset graph node => Sys2Proof.Machine.execQreset graph node s
  | .note graph node => Sys2Proof.Machine.execNote graph node s
  | .schedulingPeriodBoundary vdev => Sys2Proof.Machine.execSchedulingPeriodBoundary vdev s
  | .quantumBoundary part => Sys2Proof.Machine.execQuantumBoundary part s
  | .reflectionRecord ctx => Sys2Proof.Machine.execReflectionRecord ctx s
  | .rfetch sv d => Sys2Proof.Machine.execRfetch sv d s
  | .bfx l p sv d => Sys2Proof.Machine.execBfx l p sv d s
  | .swait t sv d => Sys2Proof.Machine.execSwait t sv d s
  | .swaitWake cdie core => Sys2Proof.Machine.execSwaitWake cdie core s
  | .swaitTimeout cdie core => Sys2Proof.Machine.execSwaitTimeout cdie core s
  | .disp sv d => Sys2Proof.Machine.execDisp sv d s
  | .dispatchStart cdie core => Sys2Proof.Machine.execDispatchStart cdie core s
  | .dispatchCurtain cdie core => Sys2Proof.Machine.execDispatchCurtain cdie core s
  | .dispatchRestore cdie core => Sys2Proof.Machine.execDispatchRestore cdie core s
  | .dispatchChain cdie core => Sys2Proof.Machine.execDispatchChain cdie core s
  | .xtimecmpWrite cdie core v => Sys2Proof.Machine.execXtimecmpWrite cdie core v s
  | .timerExpiry cdie core => Sys2Proof.Machine.execTimerExpiry cdie core s
  | .heartbeatSend cdie => Sys2Proof.Machine.execHeartbeatSend cdie s
  | .heartbeatArrival cdie => Sys2Proof.Machine.execHeartbeatArrival cdie s
  | .heartbeatMiss cdie => Sys2Proof.Machine.execHeartbeatMiss cdie s
  | .fenceHoldExpiry die => Sys2Proof.Machine.execFenceHoldExpiry die s
  | .adoption cdie => Sys2Proof.Machine.execAdoption cdie s
  | .powerCapRequest mw => Sys2Proof.Machine.execPowerCapRequest mw s
  | .bandwidthShareRequest part stack share => Sys2Proof.Machine.execBandwidthShareRequest part stack share s
  | .timeSourceLoss => Sys2Proof.Machine.execTimeSourceLoss s
  | .timeSourceReturn => Sys2Proof.Machine.execTimeSourceReturn s
  | .tamper => Sys2Proof.Machine.execTamper s
  | .supplyGlitch => Sys2Proof.Machine.execSupplyGlitch s
  | .alarmRelease req => Sys2Proof.Machine.execAlarmRelease req s
  | .fuseRequest lms slot revoke key req => Sys2Proof.Machine.execFuseRequest lms slot revoke key req s
  | .getVersion ring => Sys2Proof.Machine.execGetVersion ring s
  | .getCapabilities ring => Sys2Proof.Machine.execGetCapabilities ring s
  | .negotiateAlgorithms ring p384 sha384 => Sys2Proof.Machine.execNegotiateAlgorithms ring p384 sha384 s
  | .getDigests ring => Sys2Proof.Machine.execGetDigests ring s
  | .getCertificate ring => Sys2Proof.Machine.execGetCertificate ring s
  | .challenge ring nonce => Sys2Proof.Machine.execChallenge ring nonce s
  | .getMeasurements ring index nonce => Sys2Proof.Machine.execGetMeasurements ring index nonce s
  | .imageAdmission ctx va emitted => Sys2Proof.Machine.execImageAdmission ctx va emitted s
  | .verifyRequest cdie core => Sys2Proof.Machine.execVerifyRequest cdie core s
  | .relocationRequest cdie core pa => Sys2Proof.Machine.execRelocationRequest cdie core pa s
  | .loadRequest act slot => Sys2Proof.Machine.execLoadRequest act slot s
  | .configClear die => Sys2Proof.Machine.execConfigClear die s
  | .configWrite die => Sys2Proof.Machine.execConfigWrite die s
  | .sceneLoadComplete act slot => Sys2Proof.Machine.execSceneLoadComplete act slot s
  | .scrub what found => Sys2Proof.Machine.execScrub what found s
  | .packageReset images boot => Sys2Proof.Machine.execPackageReset images boot s
  | .fabricDieReset die => Sys2Proof.Machine.execFabricDieReset die s
  | .ethFrame port frame ptpEvent => Sys2Proof.Machine.execEthFrame port frame ptpEvent s
  | .seqCommand q => Sys2Proof.Machine.execSeqCommand q s
  | .illegalInstruction word => Sys2Proof.Machine.execIllegalInstruction word s
  | .dieLinkDown a b => Sys2Proof.Machine.execDieLinkDown a b s
  | .dieLinkUp a b => Sys2Proof.Machine.execDieLinkUp a b s
  | .hostAttach => Sys2Proof.Machine.execHostAttach s
  | .hostPortAccess fn pa write data len => Sys2Proof.Machine.execHostPortAccess fn pa write data len s
  | .partitionChange part spec => Sys2Proof.Machine.execPartitionChange part spec s
  | .virtualDeviceCreate ctx part desc quantum period vf traceRing traceMask => Sys2Proof.Machine.execVirtualDeviceCreate ctx part desc quantum period vf traceRing traceMask s
  | .controlDieFailure cdie => Sys2Proof.Machine.execControlDieFailure cdie s

end Sys2Proof.Machine
end

