-- ==== Sys2Proof/Machine/Base.lean ====
section
/-! DEFINITION. The RV64I words of a management core, with the CSR accesses that R400 names (R1, R394, R400). The encodings and the meanings
are the RISC-V unprivileged and privileged specifications', by reference (A20, PRESUMED). -/
namespace Sys2Proof.Machine

/-! ## Fields -/

/-- `n` bits of a word from bit `lo`, as a number. -/
def wbits (w : W32) (lo n : Nat) : Nat := w.toNat / 2 ^ lo % 2 ^ n

/-- The register fields. -/
def wreg (w : W32) (lo : Nat) : Reg := w.extractLsb' lo 5

/-- The immediates of the I, S, B, U and J forms, sign-extended. -/
def immI (w : W32) : Dbl := (w.extractLsb' 20 12).signExtend 64
def immS (w : W32) : Dbl := (w.extractLsb' 25 7 ++ w.extractLsb' 7 5).signExtend 64
def immB (w : W32) : Dbl :=
  (w.extractLsb' 31 1 ++ w.extractLsb' 7 1 ++ w.extractLsb' 25 6 ++ w.extractLsb' 8 4 ++ (0 : BitVec 1)).signExtend 64
def immU (w : W32) : Dbl := (w.extractLsb' 12 20 ++ (0 : BitVec 12)).signExtend 64
def immJ (w : W32) : Dbl :=
  (w.extractLsb' 31 1 ++ w.extractLsb' 12 8 ++ w.extractLsb' 20 1 ++ w.extractLsb' 21 10 ++ (0 : BitVec 1)).signExtend 64

/-! ## What a word computes -/

/-- The operation of a funct3, with `alt` for subtraction and the arithmetic shift, on doubles. -/
def aluDbl (f3 : Nat) (alt : Bool) (a b : Dbl) : Dbl :=
  match f3 with
  | 0 => if alt then a - b else a + b
  | 1 => a <<< (b.toNat % 64)
  | 2 => if a.slt b then 1 else 0
  | 3 => if a.ult b then 1 else 0
  | 4 => a ^^^ b
  | 5 => if alt then a.sshiftRight (b.toNat % 64) else a >>> (b.toNat % 64)
  | 6 => a ||| b
  | _ => a &&& b

/-- The operation of a funct3 on words, sign-extended; `none` where RV64I has none. -/
def aluWord (f3 : Nat) (alt : Bool) (a b : W32) : Option Dbl :=
  match f3 with
  | 0 => some ((if alt then a - b else a + b).signExtend 64)
  | 1 => some ((a <<< (b.toNat % 32)).signExtend 64)
  | 5 => some ((if alt then a.sshiftRight (b.toNat % 32) else a >>> (b.toNat % 32)).signExtend 64)
  | _ => none

/-- Whether a branch of a funct3 is taken; `none` where RV64I has none. -/
def branchTaken (f3 : Nat) (a b : Dbl) : Option Bool :=
  match f3 with
  | 0 => some (a == b)
  | 1 => some (a != b)
  | 4 => some (a.slt b)
  | 5 => some (!(a.slt b))
  | 6 => some (a.ult b)
  | 7 => some (!(a.ult b))
  | _ => none

/-- The bytes of a load of a funct3, and the value of what they hold; `none` where RV64I has none. -/
def loadForm (f3 : Nat) : Option (Nat × (Nat → Dbl)) :=
  match f3 with
  | 0 => some (1, fun v => (BitVec.ofNat 8 v).signExtend 64)
  | 1 => some (2, fun v => (BitVec.ofNat 16 v).signExtend 64)
  | 2 => some (4, fun v => (BitVec.ofNat 32 v).signExtend 64)
  | 3 => some (8, fun v => BitVec.ofNat 64 v)
  | 4 => some (1, fun v => BitVec.ofNat 64 v)
  | 5 => some (2, fun v => BitVec.ofNat 64 v)
  | 6 => some (4, fun v => BitVec.ofNat 64 v)
  | _ => none

/-- A CSR of the model by its address: read, and written. R400: XTIMECMP is at 0x7C0. -/
def csrRead (c : Core) (n : Nat) : Option Dbl :=
  match n with
  | 0x7C0 => some c.xtimecmp
  | 0x305 => some c.mtvec
  | 0x341 => some c.mepc
  | 0x342 => some c.mcause
  | 0x343 => some c.mtval
  | 0xB00 => some (BitVec.ofNat 64 c.mcycle)
  | _ => none

def csrWrite (c : Core) (n : Nat) (v : Dbl) : Core :=
  match n with
  | 0x7C0 => { c with xtimecmp := v }
  | 0x305 => { c with mtvec := v }
  | 0x341 => { c with mepc := v }
  | 0x342 => { c with mcause := v }
  | 0x343 => { c with mtval := v }
  | 0xB00 => { c with mcycle := v.toNat }
  | _ => c

/-! ## One word -/

/-- What a base word does: a state, a wait for a link, an address that does not exist, or a word that the model does not hold. -/
inductive BaseDid where
  | next (s : State)
  | hole (pa : Nat)
  | unknown

/-- R394, R280: a load of a management core, of package physical memory, with no translation. -/
def coreLoad (s : State) (w : W32) : BaseDid :=
  match loadForm (wbits w 12 3) with
  | none => .unknown
  | some (n, f) =>
    let pa := (s.core.readX (wreg w 15) + immI w).toNat
    if !populated pa || !populated (pa + n - 1) then .hole pa
    else if !(s.controlReaches s.cd pa) || s.fencedMem pa then .next s
    else if (s.firstPoison pa n).isSome then .unknown
    else .next (s.coreDone (wreg w 7) (f (s.mem.readN pa n)))

/-- R394, R280: a store of a management core. -/
def coreStore (s : State) (w : W32) : BaseDid :=
  if 4 ≤ wbits w 12 3 then .unknown
  else
    let n := 2 ^ wbits w 12 3
    let pa := (s.core.readX (wreg w 15) + immS w).toNat
    if !populated pa || !populated (pa + n - 1) then .hole pa
    else .next ((s.storeFrom (some s.cd.val) pa (leBytes n (s.core.readX (wreg w 20)).toNat)).updCoreCur (·.advance))

/-- R400: a CSR instruction. XTIMECMP outside machine mode raises mcause 2. -/
def coreCsr (s : State) (w : W32) : BaseDid :=
  let c := s.core
  let n := wbits w 20 12
  let src : Dbl := if 4 ≤ wbits w 12 3 then BitVec.ofNat 64 (wbits w 15 5) else c.readX (wreg w 15)
  let writes := wbits w 12 2 = 1 || wbits w 15 5 ≠ 0
  if !c.machineMode then .next (s.coreTrap 2 (w.zeroExtend 64))
  else match csrRead c n with
  | none => .unknown
  | some old =>
    let v := match wbits w 12 2 with
      | 1 => src
      | 2 => old ||| src
      | _ => old &&& ~~~src
    .next (s.updCoreCur fun c => ((if writes then csrWrite c n v else c).writeX (wreg w 7) old).advance)

/-- The return from a trap: the program counter is mepc, and the mode is the one before the trap. -/
def Core.mret (c : Core) : Core := { c with pc := c.mepc, machineMode := c.prior }

/-- A jump that leaves the address of the next word in a register. -/
def coreJump (s : State) (d : Reg) (pc : Dbl) : State :=
  s.updCoreCur fun c => { c.writeX d (c.pc + 4) with pc := pc }

/-- R394: an RV64I word executed by the core at hand. -/
def baseWord (s : State) (w : W32) : BaseDid :=
  let c := s.core
  let d := wreg w 7
  let a := c.readX (wreg w 15)
  let b := c.readX (wreg w 20)
  let f3 := wbits w 12 3
  let f7 := wbits w 25 7
  match wbits w 0 7 with
  | 0x37 => .next (s.coreDone d (immU w))
  | 0x17 => .next (s.coreDone d (c.pc + immU w))
  | 0x6F => .next (coreJump s d (c.pc + immJ w))
  | 0x67 => if f3 = 0 then .next (coreJump s d ((a + immI w) &&& ~~~(1 : Dbl))) else .unknown
  | 0x63 => match branchTaken f3 a b with
    | some t => .next (s.updCoreCur fun c => { c with pc := if t then c.pc + immB w else c.pc + 4 })
    | none => .unknown
  | 0x03 => coreLoad s w
  | 0x23 => coreStore s w
  | 0x13 =>
    let shift := f3 = 1 || f3 = 5
    let f6 := wbits w 26 6
    if shift && f6 ≠ 0 && !(f3 = 5 && f6 = 16) then .unknown
    else .next (s.coreDone d (aluDbl f3 (f3 = 5 && f6 = 16) a (if shift then BitVec.ofNat 64 (wbits w 20 6) else immI w)))
  | 0x33 =>
    if f7 = 0 || (f7 = 32 && (f3 = 0 || f3 = 5)) then .next (s.coreDone d (aluDbl f3 (f7 = 32) a b)) else .unknown
  | 0x1B =>
    if (f3 = 1 && f7 ≠ 0) || (f3 = 5 && f7 ≠ 0 && f7 ≠ 32) then .unknown
    else
      let imm : W32 := if f3 = 0 then (immI w).truncate 32 else BitVec.ofNat 32 (wbits w 20 5)
      match aluWord f3 (f3 = 5 && f7 = 32) (a.truncate 32) imm with
      | some v => .next (s.coreDone d v)
      | none => .unknown
  | 0x3B =>
    if f7 = 0 || (f7 = 32 && (f3 = 0 || f3 = 5)) then
      match aluWord f3 (f7 = 32) (a.truncate 32) (b.truncate 32) with
      | some v => .next (s.coreDone d v)
      | none => .unknown
    else .unknown
  | 0x0F => if f3 < 2 then .next (s.updCoreCur (·.advance)) else .unknown
  | 0x73 =>
    if w = 0x30200073 then
      if c.machineMode then .next (s.updCoreCur (·.mret)) else .next (s.coreTrap 2 (w.zeroExtend 64))
    else if w = 0x00000073 then .next (s.coreTrap (if c.machineMode then 11 else 8) 0)
    else if w = 0x00100073 then .next (s.coreTrap 3 c.pc)
    else if wbits w 12 2 ≠ 0 then coreCsr s w else .unknown
  | _ => .unknown

end Sys2Proof.Machine
end

