-- ==== Sys2Proof/Machine/Fetch.lean ====
section
/-! DEFINITION. What an agent does next: an act's fetch (R113, R114, R208), a management core's fetch (R394,
R395), and the placing of one instruction where the next step fetches it (A4, DESIGN CHOICE). -/
namespace Sys2Proof.Machine

/-- The next instruction of an agent, or the state after a step that executes none, or a refusal. -/
inductive Fetched where
  | run (i : Instr) (s : State)
  | stay (s : State)
  | stop (r : Refusal)
  | broken (f : Fault)

/-- R81: the instruction that a word stands for; a word that R81 refuses is the illegal instruction. -/
def instrOf (w : W32) : Instr :=
  match decodeBytes (bytesOfWord w) with
  | .ok (i, _) => i
  | .error _ => .illegalInstruction w

/-- R208: a fault from an engine is taken at the instruction boundary, before the next word. -/
def takeAsync (s : State) (code : Byte) (arg : Dbl) (rest : List (Byte × Dbl)) : State :=
  (s.updCur fun a => { a with asyncTrap := rest }).trap code arg

/-- R113, R130: the next word of act `id`, from its loop buffer or through its context. -/
def fetchAct (s : State) (id : Nat) : Fetched :=
  let s := { s with me := id }
  let a := s.act id
  let pc := a.regs.acpc
  if a.life ≠ .running || a.leaving then .stay s
  else match a.asyncTrap with
  | (c, x) :: rest => .stay (takeAsync s c x rest)
  | [] =>
    match if a.regs.looping && !a.regs.faultH then assoc? pc a.loopBuf else none with
    | some w => .run (instrOf w) s
    | none =>
      if s.pageDown a.ctx pc then .stay s
      else match promptAccess s pc 4 .fetch with
      | (.ok pa, s) => .run (instrOf (BitVec.ofNat 32 (s.mem.readN pa 4))) s
      | (.wait, s) => .stay s
      | (.fault c x, s) => .stay (s.trap c x)

/-- R11, R394, R395: the next word of a management core, at a physical address. A word outside the custom-0 space is a base word
(A20, PRESUMED); a custom-0 word that R395 does not list raises mcause 2. -/
def fetchCore (s : State) (d : Fin 2) (c : Fin 8) : Fetched :=
  let s := { s with cd := d, ci := c }
  let m := s.mcore d c
  if m.held || m.waiting.isSome || (s.cdie d).failed || !(s.controlReaches d m.pc.toNat) then .stay s
  else if !populated m.pc.toNat then .broken (.unpopulated m.pc.toNat)
  else
    let w : W32 := BitVec.ofNat 32 (s.mem.readN m.pc.toNat 4)
    match decodeXalholt w with
    | .ok i => .run i s
    | .error _ =>
      if fld w 0 7 = 0x0B then
        .stay (s.updCore d c (·.trap 2 (w.zeroExtend 64)))
      else match baseWord s w with
        | .next s => .stay s
        | .hole pa => .broken (.unpopulated pa)
        | .unknown => .stop (.baseIsa w)

/-! ## One instruction placed (A4, DESIGN CHOICE) -/

/-- The page tables and the code page of a context whose window begins at physical address 0: tables at 0x1000
to 0x5000, one page at 0x6000 that virtual address 0 maps to, readable, writable and executable. -/
def loaderMem (m : Mem) (w : Nat) : Mem :=
  ((((((m.writeN 0x1000 8 0x2001).writeN 0x2000 8 0x3001).writeN 0x3000 8 0x4001).writeN 0x4000 8 0x5001).writeN
    0x5000 8 0x6007).writeN 0x6000 4 w)

/-- The context that the placed instruction runs in. -/
def loaderCtx (id : Nat) : Ctx :=
  { Ctx.empty id with
    ptroot := 0x1000, mbound := 0x10000, fb := 0, fl := 0x10000, qmask := 0xFFFFFFFFFFFFFFFF,
    highest := 1,
    tasks := [{ no := 0, stamp := 1, act := 0, parts := [0], step1 := true, checks := [(0, Regs.zero.checkpoint [])], lines := [],
                deferred := [], ranges := [], accs := [], aborts := 0 }] }

/-- The act that runs the placed instruction: ACTID 0 on a region of one tile, with its launch's task open. -/
def loaderAct : Act :=
  let a : Act := { Act.empty 0 with
    life := .running, taskOpen := true,
    regs := { Regs.zero with stamp := 1 },
    region := { RegionSt.zero with w := 1, h := 1 } }
  { a with cut := some (a.record 0) }

/-- A control-stream word placed at the ACPC of act 0. -/
def State.placeControl (s : State) (w : Nat) : State :=
  { s with mem := loaderMem s.mem w, agenda := [], focus := .act, me := 0,
           acts := assocSet 0 loaderAct s.acts, ctxs := assocSet 0 (loaderCtx 0) s.ctxs }

/-- A Xalholt word placed at the pc of the management core that moves next. -/
def State.placeXalholt (s : State) (w : Nat) : State :=
  { s.updCore s.cd s.ci (fun m => { m with held := false, waiting := none }) with
    mem := s.mem.writeN (s.mcore s.cd s.ci).pc.toNat 4 w, agenda := [], focus := .core }

end Sys2Proof.Machine
end

