-- ==== Sys2Proof/Machine/World.lean ====
section
/-! DEFINITION. What happens to the package that is no event of the opcode table (R17, R21, R56, R113, R259, R273, R274, R394). -/
namespace Sys2Proof.Machine

/-- R56: the parity of the k-th token at an input fails. [log 81 DEDUCED] -/
def State.tokenUpset (s : State) (t : TileId) (inp k : Nat) : State :=
  s.updTile t fun x =>
    { x with inbuf := x.inbuf.mapIdx fun i l => if i = inp then l.mapIdx fun j b => if j = k then { b with bad := true } else b else l }

/-- R259, R426: the parity of the granule of 8 bytes at `off` in the words of a scene slot of a tile fails. -/
def State.cellUpset (s : State) (t : TileId) (slot off : Nat) : State :=
  s.updTile t fun x => { x with parity := x.parity.insert (slot, off / 8 * 8) }

/-- R274: the power core gates a bank, if it is free. -/
def State.gateBank (s : State) (die bank : Nat) : State :=
  let b := s.bank (bankKey die bank)
  if b.use = .free then
    { s with fab := { s.fab with banks := assocSet (bankKey die bank) { b with use := .gated } s.fab.banks } }
  else s

/-- R113, R282: a shootdown of a range of a context begins; it ends with SHOOTDOWN_COMPLETE. -/
def State.shootdownBegin (s : State) (ctx : Nat) (va : Dbl) (len : Nat) : State :=
  { s with eng := { s.eng with downs := s.eng.downs.insert (ctx, va.toNat % 2 ^ 57, len) } }

/-- R17, R426: the parity of a slice entry fails: it is discarded, and its page is walked again. [log 81 DEDUCED] -/
def State.sliceUpset (s : State) (die ctx page : Nat) : State :=
  { s with eng := { s.eng with slices := s.eng.slices.filter fun e => !(e.die == die && e.ctx == ctx && e.page == page) } }

/-- R17, R426: the parity of a word of a loop buffer fails: the word is fetched from memory again. -/
def State.loopUpset (s : State) (act : Nat) (pc : Dbl) : State :=
  s.updAct act fun a => { a with loopBuf := a.loopBuf.filter (·.1 != pc) }

/-- R394, R400: whether a RISC-V word is a Xalholt word, of the custom-0 opcode, or a CSR access to XTIMECMP. -/
def appRefuses (w : W32) : Bool :=
  fld w 0 7 == 0x0B || (fld w 0 7 == 0x73 && fld w 12 2 != 0 && fld w 20 12 == 0x7C0)

/-- R394, R400: an application core comes to a word: one of Xalholt, or an access to XTIMECMP, raises mcause 2; what its other words do is
the RISC-V base's (A20, PRESUMED). -/
def State.appWord (s : State) (cdie core : Nat) (w : W32) : State :=
  let d : Fin 2 := Fin.ofNat 2 cdie
  let k : Fin 16 := Fin.ofNat 16 core
  if (s.cdie d).failed || (s.app d k).held || !(appRefuses w) then s
  else s.updApp d k (·.trap 2 (w.zeroExtend 64))

/-- R399: a core takes an interrupt: its program counter, that of the SWAIT where one is in progress, goes to mepc, and the wait is
abandoned; after mret the SWAIT executes afresh. -/
def State.interrupt (s : State) (cdie core cause : Nat) : State :=
  let d : Fin 2 := Fin.ofNat 2 cdie
  let k : Fin 8 := Fin.ofNat 8 core
  if !(s.coreAlive d k) then s else s.updCore d k (·.trap (2 ^ 63 + cause) 0)

/-- One occurrence. -/
def State.occur (s : State) (w : World) : State :=
  match w with
  | .tokenUpset t i k => s.tokenUpset t i k
  | .cellUpset t slot off => s.cellUpset t slot off
  | .gateBank die b => s.gateBank die b
  | .selectTime src => s.selectTime src
  | .timeSignal src up => s.timeSignal src up
  | .shootdownBegin ctx va len => s.shootdownBegin ctx va len
  | .sliceUpset die ctx page => s.sliceUpset die ctx page
  | .loopUpset act pc => s.loopUpset act pc
  | .appWord d c w => s.appWord d c w
  | .timeEdge => s.timeEdge
  | .upset what found => s.upset what found
  | .interrupt d c cause => s.interrupt d c cause
  | .powerCycle images boot => s.packageReset images boot

end Sys2Proof.Machine
end

