-- ==== Sys2Proof/Machine/Step.lean ====
section
/-! DEFINITION. One step of the package (A1, DESIGN CHOICE). -/
namespace Sys2Proof.Machine

/-- The instruction an agent has fetched is executed. -/
def runFetched (f : Fetched) : Host.Outcome State Fault Refusal :=
  match f with
  | .run i s => exec i s
  | .stay s => .next s
  | .stop r => .refused r
  | .broken f => .fault f

/-- A1: one move. -/
def move (m : Move) (s : State) : Host.Outcome State Fault Refusal :=
  match m with
  | .act id => runFetched (fetchAct s id)
  | .core d c => runFetched (fetchCore s (Fin.ofNat 2 d) (Fin.ofNat 8 c))
  | .clock => .next s.tick
  | .event i => exec i s
  | .world w => .next (s.occur w)

/-- A1: the first move of the agenda; with an empty agenda the agent of the focus moves, and where that is an
act that cannot run, the clock passes. -/
def step (s : State) : Host.Outcome State Fault Refusal :=
  match s.agenda with
  | m :: rest => move m { s with agenda := rest }
  | [] =>
    match s.focus with
    | .core => move (.core s.cd.val s.ci.val) s
    | .act => if s.cur.life = .running && !s.cur.leaving then move (.act s.me) s else move .clock s

/-- A4: the state in which the next step fetches and runs the instruction whose table word is `w`. -/
def State.withFetchWord (s : State) (nbits w : Nat) : State :=
  if nbits = 32 ∧ isXalholt (BitVec.ofNat 32 w) then s.placeXalholt w else s.placeControl w

end Sys2Proof.Machine
end

