-- ==== Sys2Proof/Safety.lean ====
section
/-! DEFINITION. What a safe step is, in the terms that statements use. -/
namespace Sys2Proof

/-- A step that neither faults nor is refused. -/
def Safe (s : Machine.State) : Prop := ∃ s', Machine.step s = .next s'

/-- The canonical form of memory holds. -/
def MemOk (s : Machine.State) : Prop := Machine.Mem.wf s.mem = true

/-- The canonical form of every stream bank holds, and of every bank whose bytes a green room keeps. -/
def BanksOk (s : Machine.State) : Prop :=
  (∀ p ∈ s.fab.banks, Machine.Mem.wf p.2.bytes = true) ∧ ∀ g ∈ s.sch.green, ∀ p ∈ g.banks, Machine.Mem.wf p.2.bytes = true

/-- The canonical form of memory and of the banks holds. -/
def StorageOk (s : Machine.State) : Prop := MemOk s ∧ BanksOk s

end Sys2Proof
end

