-- ==== Sys2Proof/Certificates/Slice0/Obligations.lean ====
section
/-! DEFINITION. The statements about the model, by family, with the words they share. -/
namespace Sys2Proof.Claims
open Sys2Proof Machine

/-! ## Words that several statements share -/

/-- Nothing but act contexts differs, and of these only the one whose instruction is executed. -/
def OnlyThisAct (s t : State) : Prop := t = { s with acts := t.acts } ∧ ∀ id, id ≠ s.me → t.act id = s.act id

/-- Nothing of the act but its general registers, its ACPC and its loop state (R129, R130) differs, no other act differs, and where
no loop is active, or loops are suspended (R115), the ACPC is 4 further. -/
def PastCur (s t : State) : Prop :=
  (∀ id, id ≠ s.me → t.act id = s.act id) ∧
  t.cur = { s.cur with
    loopBuf := t.cur.loopBuf
    regs := { s.cur.regs with g := t.cur.regs.g, acpc := t.cur.regs.acpc, lb := t.cur.regs.lb, lc := t.cur.regs.lc } } ∧
  ((s.cur.regs.faultH = true ∨ s.cur.regs.looping = false) →
    t.cur.regs.acpc = s.cur.regs.acpc + 4 ∧ t.cur.regs.lb = s.cur.regs.lb ∧ t.cur.regs.lc = s.cur.regs.lc)

/-- The step past an instruction that only writes general registers: nothing else in the package differs. -/
def PastInstr (s t : State) : Prop := t = { s with acts := t.acts } ∧ PastCur s t

/-- The general registers after `v` is written to g`d`: g0 reads as zero (R110). -/
def Wrote (s t : State) (d : Reg) (v : Dbl) : Prop :=
  ∀ r, t.g r = if r = 0 then 0 else if r = d then v else s.g r

/-- No general register differs. -/
def SameG (s t : State) : Prop := ∀ r, t.g r = s.g r

/-! ## Arithmetic and logic (R120 to R122) -/

/-- R120: an operand, as a signed number; of a form with the .s32 qualifier the low 32 bits. -/
def signedOperand (w : Bool) (v : Dbl) : Int := if w then (v.setWidth 32).toInt else v.toInt

/-- R120: an exact result made a register value: saturated under .sat, and then cut to 64 bits, or to 32 bits that are
sign-extended. -/
def narrowed (sat w : Bool) (x : Int) : Dbl :=
  let lim : Int := if w then 2 ^ 31 else 2 ^ 63
  let y := if sat then max (-lim) (min (lim - 1) x) else x
  if w then (BitVec.ofInt 32 y).signExtend 64 else BitVec.ofInt 64 y

/-- R120, R121, R122: the destination and the value of an instruction on general registers that read `g`. -/
def aluResult (g : Reg → Dbl) : Instr → Option (Reg × Dbl)
  | .add d a b sat w => some (d, narrowed sat w (signedOperand w (g a) + signedOperand w (g b)))
  | .sub d a b sat w => some (d, narrowed sat w (signedOperand w (g a) - signedOperand w (g b)))
  | .mul d a b sat w => some (d, narrowed sat w (signedOperand w (g a) * signedOperand w (g b)))
  | .and d a b => some (d, g a &&& g b)
  | .or d a b => some (d, g a ||| g b)
  | .xor d a b => some (d, g a ^^^ g b)
  | .shl d a b w => some (d, narrowed false w (signedOperand w (g a) * 2 ^ ((g b).toNat % (if w then 32 else 64))))
  | .shr d a b w => some (d, if w then ((g a).setWidth 32 >>> ((g b).toNat % 32)).signExtend 64 else g a >>> ((g b).toNat % 64))
  | .sra d a b w => some (d, narrowed false w (signedOperand w (g a) / 2 ^ ((g b).toNat % (if w then 32 else 64))))
  | .mulh d a b => some (d, BitVec.ofInt 64 ((g a).toInt * (g b).toInt / 2 ^ 64))
  | .mulhz d a b => some (d, BitVec.ofNat 64 ((g a).toNat * (g b).toNat / 2 ^ 64))
  | .div d a b => some (d, if g b = 0 then BitVec.allOnes 64 else (g a).sdiv (g b))
  | .divz d a b => some (d, if g b = 0 then BitVec.allOnes 64 else (g a).udiv (g b))
  | .rem d a b => some (d, if g b = 0 then g a else (g a).srem (g b))
  | .remz d a b => some (d, if g b = 0 then g a else (g a).umod (g b))
  | .min d a b => some (d, if (g a).toInt < (g b).toInt then g a else g b)
  | .max d a b => some (d, if (g b).toInt < (g a).toInt then g a else g b)
  | .minz d a b => some (d, if (g a).toNat < (g b).toNat then g a else g b)
  | .maxz d a b => some (d, if (g b).toNat < (g a).toNat then g a else g b)
  | .slt d a b => some (d, if (g a).toInt < (g b).toInt then 1 else 0)
  | .sltz d a b => some (d, if (g a).toNat < (g b).toNat then 1 else 0)
  | .seq d a b => some (d, if g a = g b then 1 else 0)
  | .sne d a b => some (d, if g a = g b then 0 else 1)
  | .clz d a => some (d, if g a = 0 then 64 else BitVec.ofNat 64 (63 - (g a).toNat.log2))
  | .popc d a => some (d, BitVec.ofNat 64 (((List.range 64).map fun i => ((g a).getLsbD i).toNat).sum))
  | .addi d a i => some (d, g a + i.signExtend 64)
  | .andi d a i => some (d, g a &&& i.zeroExtend 64)
  | .ori d a i => some (d, g a ||| i.zeroExtend 64)
  | .xori d a i => some (d, g a ^^^ i.zeroExtend 64)
  | .shli d a n => some (d, g a <<< n.toNat)
  | .shri d a n => some (d, g a >>> n.toNat)
  | .srai d a n => some (d, BitVec.ofInt 64 ((g a).toInt / 2 ^ n.toNat))
  | .slti d a i => some (d, if (g a).toInt < i.toInt then 1 else 0)
  | .lui d i => some (d, BitVec.ofInt 64 (i.toInt * 2 ^ 16))
  | _ => none

end Sys2Proof.Claims

open Sys2Proof Machine Claims

/-- R120, R121, R122: the 34 arithmetic and logic instructions complete in every state, write exactly their result to rd, and leave
everything else. -/
def Obligations.ArithmeticResults : Prop :=
  ∀ (s : State) (i : Instr) (d : Reg) (v : Dbl), aluResult s.g i = some (d, v) →
    ∃ t, exec i s = .next t ∧ Wrote s t d v ∧ PastInstr s t

namespace Sys2Proof.Claims
open Sys2Proof Machine

/-! ## Control flow (R128 to R130) and traps (R115, R118) -/

/-- Nothing differs but the general registers, the ACPC and the loop state of the act. -/
def FlowInstr (s t : State) : Prop :=
  OnlyThisAct s t ∧
  t.cur = { s.cur with
    loopBuf := t.cur.loopBuf
    regs := { s.cur.regs with g := t.cur.regs.g, acpc := t.cur.regs.acpc, lb := t.cur.regs.lb, lc := t.cur.regs.lc } }

/-- R128: whether the condition of a branch holds, and its offset in words. -/
def branchOf (g : Reg → Dbl) : Instr → Option (Prop × BitVec 11)
  | .bEq a b o => some (g a = g b, o)
  | .bNe a b o => some (g a ≠ g b, o)
  | .bLt a b o => some ((g a).toInt < (g b).toInt, o)
  | .bGe a b o => some ((g b).toInt ≤ (g a).toInt, o)
  | .bLtz a b o => some ((g a).toNat < (g b).toNat, o)
  | .bGez a b o => some ((g b).toNat ≤ (g a).toNat, o)
  | _ => none

/-- R115: the act takes trap `code` with argument `arg` at its word: the saved registers are written and no general register
changes. Where its context claims the code and H is 0 the handler is entered; otherwise the act stops, with H and ACPC as they
were. -/
def TakesTrap (s t : State) (code : Byte) (arg : Dbl) : Prop :=
  SameG s t ∧ (∀ id, id ≠ s.me → t.act id = s.act id) ∧
  t.cur.regs.faultPc = s.cur.regs.acpc ∧ t.cur.regs.faultCode = code ∧ t.cur.regs.faultArg = arg ∧
  t.cur.regs.lbase = s.cur.regs.lbase ∧ t.cur.regs.lb = s.cur.regs.lb ∧ t.cur.regs.lc = s.cur.regs.lc ∧
  t.cur.regs.c = s.cur.regs.c ∧
  if s.curCtx.tmask.getLsbD code.toNat = true ∧ s.cur.regs.faultH = false then
    t.cur.regs.faultH = true ∧ t.cur.regs.acpc = s.curCtx.tvec ∧ t.cur.life = s.cur.life
  else
    t.cur.regs.faultH = s.cur.regs.faultH ∧ t.cur.regs.acpc = s.cur.regs.acpc ∧ ∃ c, t.cur.life = .trapped c

end Sys2Proof.Claims

open Sys2Proof Machine Claims

/-- R128: a branch whose condition holds goes to its target, 4 times its offset from its address; otherwise it steps past. -/
def Sys2Proof.Claims.BranchesGo : Prop :=
  ∀ (s : State) (i : Instr) (p : Prop) (o : BitVec 11), branchOf s.g i = some (p, o) →
    ∃ t, exec i s = .next t ∧ FlowInstr s t ∧ SameG s t ∧
      (p → t.cur.regs.acpc = s.cur.regs.acpc + BitVec.ofInt 64 (4 * o.toInt) ∧ t.cur.regs.lc = s.cur.regs.lc) ∧
      (¬p → PastInstr s t)

/-- R128: JAL and JR write the address after them to rd and jump; the target of JR is read before rd is written. -/
def Sys2Proof.Claims.JumpsLand : Prop :=
  (∀ (s : State) (d : Reg) (i : BitVec 21), ∃ t, exec (.jal d i) s = .next t ∧ FlowInstr s t ∧
    Wrote s t d (s.cur.regs.acpc + 4) ∧ t.cur.regs.acpc = s.cur.regs.acpc + BitVec.ofInt 64 (4 * i.toInt)) ∧
  (∀ (s : State) (d a : Reg) (i : BitVec 16), (s.g a + i.signExtend 64).toNat % 4 = 0 →
    ∃ t, exec (.jr d a i) s = .next t ∧ FlowInstr s t ∧
      Wrote s t d (s.cur.regs.acpc + 4) ∧ t.cur.regs.acpc = s.g a + i.signExtend 64)

/-- R128: a JR to a target that is not a multiple of 4 raises 0x03 with the target, and writes no register. -/
def Sys2Proof.Claims.JumpTargetTraps : Prop :=
  ∀ (s : State) (d a : Reg) (i : BitVec 16), (s.g a + i.signExtend 64).toNat % 4 ≠ 0 →
    ∃ t, exec (.jr d a i) s = .next t ∧ TakesTrap s t 0x03 (s.g a + i.signExtend 64)

/-- R128: what JAL and JR do, and where JR traps. -/
def Obligations.JumpResults : Prop := Claims.JumpsLand ∧ Claims.JumpTargetTraps

/-- R128, R130: a taken branch ends each active loop whose body does not hold its target, and leaves the others and every
counter. -/
def Sys2Proof.Claims.BranchEndsLoops : Prop :=
  ∀ (s : State) (a : Reg) (o : BitVec 11) (k : Fin 3), s.cur.regs.faultH = false → s.cur.regs.lb[k].on = true →
    ∃ t, exec (.bEq a a o) s = .next t ∧ t.cur.regs.lc = s.cur.regs.lc ∧
      (t.cur.regs.lb[k].on = true ↔ s.cur.regs.inBody k (s.cur.regs.acpc + BitVec.ofInt 64 (4 * o.toInt)) = true)

/-- R128, R130: what the branches do, taken and not, with loops active. -/
def Obligations.BranchResults : Prop := Claims.BranchesGo ∧ Claims.BranchEndsLoops

/-- R129, R130: LOOP and LOOPI with no loop active open a loop whose body starts at the next word; a count of 0 skips
the body. -/
def Sys2Proof.Claims.LoopOpens : Prop :=
  ∀ (s : State) (l : BitVec 2) (n : BitVec 8) (i : Instr) (count : Nat), l.toNat < 3 →
    s.cur.regs.faultH = false → s.cur.regs.looping = false →
    ((∃ a, i = .loop l a n ∧ count = (s.g a).toNat) ∨ ∃ c : BitVec 16, i = .loopi l c n ∧ count = c.toNat) → count < 2 ^ 32 →
    ∃ t, exec i s = .next t ∧ SameG s t ∧ t.mem = s.mem ∧ (∀ id, id ≠ s.me → t.act id = s.act id) ∧
      if count = 0 then t.cur.regs.acpc = s.cur.regs.acpc + 4 * n.zeroExtend 64 + 4 ∧ t.cur.regs.looping = false
      else t.cur.regs.acpc = s.cur.regs.acpc + 4 ∧ t.cur.regs.lbase = s.cur.regs.acpc + 4 ∧
        (t.cur.regs.lc[l.toNat]?) = some 0 ∧
        (t.cur.regs.lb[l.toNat]?) = some { count := BitVec.ofNat 32 count, len := n, start := 0, on := true }

/-- R130: at the last word of the body of the only active loop, the loop goes back to its first word while iterations remain, and
ends after the last, its counter kept. ADDI stands for any instruction that does not branch. -/
def Sys2Proof.Claims.LoopIterates : Prop :=
  ∀ (s : State) (k : Fin 3) (d a : Reg) (x : BitVec 16), s.cur.regs.faultH = false →
    (∀ j : Fin 3, s.cur.regs.lb[j].on = true ↔ j = k) → s.cur.regs.acpc = s.cur.regs.bodyEnd k →
    ∃ t, exec (.addi d a x) s = .next t ∧
      if s.cur.regs.lc[k].toNat + 1 < s.cur.regs.lb[k].count.toNat then
        t.cur.regs.acpc = s.cur.regs.bodyStart k ∧ t.cur.regs.lc[k] = s.cur.regs.lc[k] + 1 ∧ t.cur.regs.lb[k].on = true
      else t.cur.regs.acpc = s.cur.regs.acpc + 4 ∧ t.cur.regs.lc = s.cur.regs.lc ∧ t.cur.regs.lb[k].on = false ∧
        t.cur.loopBuf = []

/-- R129, R130: loops open, iterate and end. -/
def Obligations.LoopsRun : Prop := Claims.LoopOpens ∧ Claims.LoopIterates

/-- R115, R160, R81: TRAP n raises 0x80 + n with argument 0, and an illegal instruction 0x01 with its word. -/
def Obligations.TrapsTaken : Prop :=
  (∀ (s : State) (n : BitVec 5), ∃ t, exec (.trap n) s = .next t ∧ TakesTrap s t (BitVec.ofNat 8 (0x80 + n.toNat)) 0) ∧
  (∀ (s : State) (w : W32), ∃ t, exec (.illegalInstruction w) s = .next t ∧ TakesTrap s t 0x01 (w.zeroExtend 64))

/-- R118: ERET with H set and a loop state that R129 allows returns to FAULTPC with H clear and the loops as they stand. -/
def Sys2Proof.Claims.EretGoesBack : Prop :=
  ∀ s : State, s.cur.regs.faultH = true → s.cur.regs.nested = true →
    ∃ t, exec .eret s = .next t ∧ SameG s t ∧ t.mem = s.mem ∧ (∀ id, id ≠ s.me → t.act id = s.act id) ∧
      t.cur.regs = { s.cur.regs with acpc := s.cur.regs.faultPc &&& ~~~(3 : Dbl), faultH := false } ∧
      (∀ e, e ∈ t.cur.issue → e.held = false)

/-- R117, R118: ERET with H clear raises 0x02 with its word. -/
def Sys2Proof.Claims.EretTraps : Prop :=
  ∀ s : State, s.cur.regs.faultH = false → ∃ t, exec .eret s = .next t ∧ TakesTrap s t 0x02 (wordArg .eret)

/-- R117, R118: what ERET does with H set, and with H clear. -/
def Obligations.EretReturns : Prop := Claims.EretGoesBack ∧ Claims.EretTraps

namespace Sys2Proof.Claims
open Sys2Proof Machine

/-! ## Loads, stores and atomics (R123 to R127, R144, R301) -/

/-- R123: the register, base, offset, width in bytes and sign of a load. -/
def loadOf : Instr → Option (Reg × Reg × BitVec 16 × Nat × Bool)
  | .ldb d a x => some (d, a, x, 1, true)
  | .ldh d a x => some (d, a, x, 2, true)
  | .ldw d a x => some (d, a, x, 4, true)
  | .ldd d a x => some (d, a, x, 8, false)
  | .ldbz d a x => some (d, a, x, 1, false)
  | .ldhz d a x => some (d, a, x, 2, false)
  | .ldwz d a x => some (d, a, x, 4, false)
  | _ => none

/-- R123: the base, offset, width in bytes and value of a store. -/
def storeOf (g : Reg → Dbl) : Instr → Option (Reg × BitVec 16 × Nat × Nat)
  | .stb d a x => some (a, x, 1, (g d).toNat % 2 ^ 8)
  | .sth d a x => some (a, x, 2, (g d).toNat % 2 ^ 16)
  | .stw d a x => some (a, x, 4, (g d).toNat % 2 ^ 32)
  | .std d a x => some (a, x, 8, (g d).toNat)
  | .stq d a x => some (a, x, 16, (g d).toNat + 2 ^ 64 * (g (d ||| 1)).toNat)
  | _ => none

/-- R123: a load or store, with its base, offset and width. -/
def accessOf : Instr → Option (Reg × BitVec 16 × Nat)
  | .ldb _ a x | .ldbz _ a x | .stb _ a x => some (a, x, 1)
  | .ldh _ a x | .ldhz _ a x | .sth _ a x => some (a, x, 2)
  | .ldw _ a x | .ldwz _ a x | .stw _ a x => some (a, x, 4)
  | .ldd _ a x | .std _ a x => some (a, x, 8)
  | .ldq _ a x | .stq _ a x => some (a, x, 16)
  | _ => none

/-- R301: the byte that the act's task sees at a virtual address that maps to `pa`: its own staged byte, or memory's. -/
def seenByte (s : State) (va pa : Nat) : Byte :=
  match (taskOf s s.cur).bind fun t => stagedByte t va with
  | some b => b
  | none => s.mem.read pa

/-- The `n` bytes that the act's task sees make up `v`, least significant first. -/
def Loads (s : State) (va pa n v : Nat) : Prop :=
  v < 256 ^ n ∧ ∀ i < n, v / 256 ^ i % 256 = (seenByte s (va + i) (pa + i)).toNat

/-- The `n` bytes from `pa` hold `v`, least significant first, and every other byte of memory is as before. -/
def Stored (s t : State) (pa n v : Nat) : Prop :=
  (∀ i < n, (t.mem.read (pa + i)).toNat = v / 256 ^ i % 256) ∧
  ∀ b, b < pa ∨ pa + n ≤ b → t.mem.read b = s.mem.read b

/-- R144: the operation and the W field of an atomic, with its registers. -/
def atomicOf : Instr → Option (AtomicOp × Bool × Reg × Reg × Reg)
  | .aadd d a b w => some (.add, w, d, a, b)
  | .aand d a b w => some (.and, w, d, a, b)
  | .aor d a b w => some (.or, w, d, a, b)
  | .axor d a b w => some (.xor, w, d, a, b)
  | .amin d a b w => some (.min, w, d, a, b)
  | .amax d a b w => some (.max, w, d, a, b)
  | .aminz d a b w => some (.minz, w, d, a, b)
  | .amaxz d a b w => some (.maxz, w, d, a, b)
  | .aswap d a b w => some (.swap, w, d, a, b)
  | .acas d a b w => some (.cas, w, d, a, b)
  | _ => none

/-- R144: the new value, on `n` bits. -/
def atomicValue (op : AtomicOp) (n : Nat) (old v expected : BitVec n) : BitVec n :=
  match op with
  | .add => old + v
  | .and => old &&& v
  | .or => old ||| v
  | .xor => old ^^^ v
  | .min => if v.toInt < old.toInt then v else old
  | .max => if old.toInt < v.toInt then v else old
  | .minz => if v.toNat < old.toNat then v else old
  | .maxz => if old.toNat < v.toNat then v else old
  | .swap => v
  | .cas => if old = expected then v else old

/-- An effect outside the region may take place now: nothing is replayed and the log has room (R375, R376). -/
def LogReady (s : State) : Prop := s.cur.replay = false ∧ s.cur.log.length < 64

end Sys2Proof.Claims

open Sys2Proof Machine Claims

/-- R123, R301: a load whose access is allowed reads the bytes at its physical address, its own task's staged bytes among them,
and extends them into rd; memory is as before. -/
def Sys2Proof.Claims.LoadsRead : Prop :=
  ∀ (s s1 : State) (i : Instr) (d a : Reg) (x : BitVec 16) (n pa : Nat) (sg : Bool), loadOf i = some (d, a, x, n, sg) →
    s.cur.taskOpen = true → promptAccess s (s.g a + x.signExtend 64) n .read = (.ok pa, s1) →
    stagedBad (taskOf s s.cur) (s.g a + x.signExtend 64).toNat n = false →
    ∃ t v, exec i s = .next t ∧ Loads s (s.g a + x.signExtend 64).toNat pa n v ∧
      Wrote s t d (if sg then (BitVec.ofNat (8 * n) v).signExtend 64 else BitVec.ofNat 64 v) ∧ PastCur s t ∧ t.mem = s.mem

/-- R123, R127: LDQ reads two doubles into an even register and the next; into g0 it writes only g1. -/
def Sys2Proof.Claims.LoadPairResults : Prop :=
  ∀ (s s1 : State) (d a : Reg) (x : BitVec 16) (pa : Nat), d.toNat % 2 = 0 → s.cur.taskOpen = true →
    promptAccess s (s.g a + x.signExtend 64) 16 .read = (.ok pa, s1) →
    stagedBad (taskOf s s.cur) (s.g a + x.signExtend 64).toNat 16 = false →
    ∃ t v, exec (.ldq d a x) s = .next t ∧ Loads s (s.g a + x.signExtend 64).toNat pa 16 v ∧
      t.g d = (if d = 0 then 0 else BitVec.ofNat 64 v) ∧ t.g (d + 1) = BitVec.ofNat 64 (v / 2 ^ 64) ∧
      (∀ r, r ≠ d → r ≠ d + 1 → t.g r = s.g r) ∧ PastCur s t ∧ t.mem = s.mem

/-- R123, R127, R301: what the loads read. -/
def Obligations.LoadResults : Prop := Claims.LoadsRead ∧ Claims.LoadPairResults

/-- R302: no store of the act waits for a wing line any longer. -/
def Sys2Proof.Claims.unstalled (s : State) : State := s.updCur fun a => { a with wingStall := false }

/-- R123: a store of a task that is not speculative, whose access is allowed, puts exactly its bytes at its physical address. -/
def Obligations.StoreResults : Prop :=
  ∀ (s s1 : State) (i : Instr) (a : Reg) (x : BitVec 16) (n v pa : Nat), MemOk s → storeOf s.g i = some (a, x, n, v) →
    s.cur.taskOpen = true → speculative s s.cur = false →
    promptAccess s (s.g a + x.signExtend 64) n .write = (.ok pa, s1) →
    ∃ t, exec i s = .next t ∧ Stored s t pa n v ∧ SameG s t ∧ PastCur (unstalled s) t

/-- R149, R301: a store of a speculative task changes no byte of memory; its task then sees its bytes. It needs a wing line that
the task holds, or room for another in a bank that is awake. -/
def Obligations.StoresStaged : Prop :=
  ∀ (s s1 : State) (i : Instr) (a : Reg) (x : BitVec 16) (n v pa : Nat) (k : Task), storeOf s.g i = some (a, x, n, v) →
    s.cur.taskOpen = true → taskOf s s.cur = some k → k.step1 = false →
    promptAccess s (s.g a + x.signExtend 64) n .write = (.ok pa, s1) →
    (k.lines.any fun l => l.line == (s.g a + x.signExtend 64).toNat / 64) = true ∨
      (wingTurn s s.cur = true ∧ s.wingLines s.cur.ctx (actDie s.me) < 512 * s.wingsAwake s.cur.ctx (actDie s.me)) →
    ∃ t, exec i s = .next t ∧ t.mem = s.mem ∧ SameG s t ∧ t.cur.regs.acpc = s.cur.regs.advance.acpc ∧
      ∀ j < n, seenByte t ((s.g a + x.signExtend 64).toNat + j) (pa + j) = BitVec.ofNat 8 (v / 256 ^ j)

/-- R123, R116, R146: a load or store of an act without an open task raises 0x01 after TASK.DONE with its word; one that is misaligned raises 0x03
with its effective address. -/
def Sys2Proof.Claims.AccessesTrap : Prop :=
  ∀ (s : State) (i : Instr) (a : Reg) (x : BitVec 16) (n : Nat), accessOf i = some (a, x, n) →
    (s.cur.taskOpen = false → s.cur.taskDone = true → ∃ t, exec i s = .next t ∧ TakesTrap s t 0x01 (wordArg i)) ∧
    (s.cur.taskOpen = true → (s.g a + x.signExtend 64).toNat % n ≠ 0 →
      ∃ t, exec i s = .next t ∧ TakesTrap s t 0x03 (s.g a + x.signExtend 64))

/-- R124: the translation of an access: an address that is not canonical raises 0x10; where the walk finds a page, a write to one
that is not writable and a fetch from one that is not executable raise 0x11, each with the virtual address. -/
def Sys2Proof.Claims.TranslationFaults : Prop :=
  ∀ (s : State) (die ctx : Nat) (va : Dbl) (k : Access),
    (canonical va = false → (translate s die ctx va k).1 = .fault 0x10 va) ∧
    (∀ rel w x, canonical va = true → s.eng.slices = [] → walk s (s.ctx ctx) (va.toNat % 2 ^ 57) = .leaf rel w x →
      ((k = .write ∧ w = false) ∨ (k = .fetch ∧ x = false)) → (translate s die ctx va k).1 = .fault 0x11 va)

/-- R116, R123, R124, R146: where loads, stores and translations trap. -/
def Obligations.AccessTraps : Prop := Claims.AccessesTrap ∧ Claims.TranslationFaults

/-- R144: an atomic of a task that is not speculative, with no request before it at an engine, stores the new value and, into rd,
the old one, sign-extended from 32 bits with W. -/
def Obligations.AtomicResults : Prop :=
  ∀ (s s1 : State) (i : Instr) (op : AtomicOp) (w : Bool) (d a b : Reg) (pa n : Nat), MemOk s →
    atomicOf i = some (op, w, d, a, b) → n = (if w then 32 else 64) → s.cur.taskOpen = true → speculative s s.cur = false →
    LogReady s → s.eng.atoms = [] → promptReach s (s.g a) (n / 8) .write = (.ok pa, s1) →
    ∃ t, exec i s = .next t ∧
      Stored s t pa (n / 8)
        (atomicValue op n (BitVec.ofNat n (s.mem.readN pa (n / 8))) ((s.g b).setWidth n) ((s.g d).setWidth n)).toNat ∧
      Wrote s t d (if w then (BitVec.ofNat 32 (s.mem.readN pa 4)).signExtend 64 else BitVec.ofNat 64 (s.mem.readN pa 8)) ∧
      (∀ id, id ≠ s.me → t.act id = s.act id) ∧ t.cur.regs.acpc = s.cur.regs.advance.acpc

/-- R293: the engine of a block performs one waiting request, and no other: the lowest, in the order of stamps, ports and prompters, of
those that are the first of their act, that no copy holds back, and whose memory a link leads to. -/
def Obligations.AtomicEngineServes : Prop :=
  ∀ (s : State) (die blk : Nat) (r : AtomReq), MemOk s → r.w = false → nextAtomic s die blk = some r →
    ∃ t, exec (.atomicEngineService die blk) s = .next t ∧ t.eng.atoms = s.eng.atoms.erase r ∧ t.acts = s.acts ∧
      Stored s t r.pa 8 (atomicValue r.op 64 (BitVec.ofNat 64 (s.mem.readN r.pa 8)) r.operand r.expected).toNat ∧
      ∀ q ∈ s.atomsAt die blk, q.blocked s = false → s.fabricReaches q.pa = true → (s.atomsAt die blk).find? (·.act == q.act) = some q → r.order ≤ q.order

namespace Sys2Proof.Claims
open Sys2Proof Machine

/-! ## System registers, counters and the SCENE, CMD, barrier and event groups -/

/-- The number with the bits that a list gives for its true conditions. -/
def bitSum (l : List (Bool × Nat)) : Nat := (l.map fun p => if p.1 then 2 ^ p.2 else 0).sum

/-- R119, R256: the fields of SCENE. -/
def sceneValue (r : RegionSt) : Nat :=
  r.cur % 4 + bitSum [(r.arm, 2)] + (if r.arm then r.tgt % 4 * 8 else 0)
    + bitSum [(slotLoaded r.slots[0], 8), (slotLoaded r.slots[1], 9), (slotLoaded r.slots[2], 10), (slotLoaded r.slots[3], 11)]
    + bitSum [(slotHeld r.slots[0], 12), (slotHeld r.slots[1], 13), (slotHeld r.slots[2], 14), (slotHeld r.slots[3], 15)]

/-- R119: the fields of LBn. -/
def loopValue (l : LoopReg) : Nat := l.count.toNat * 2 ^ 32 + l.len.toNat * 2 ^ 16 + l.start.toNat * 2 ^ 8 + bitSum [(l.on, 0)]

/-- R119: what MFS reads of each system register, by number (R80). -/
def systemValue (s : State) : Nat → Option Dbl
  | 0x00 => some (BitVec.ofNat 64 (s.cur.id % 512))
  | 0x01 => some (BitVec.ofNat 64 (s.cur.ctx % 4096))
  | 0x02 => some (BitVec.ofNat 64 (s.curCtx.depth % 16))
  | 0x03 => some (BitVec.ofNat 64 (sceneValue s.cur.region))
  | 0x04 => some s.cur.regs.stamp
  | 0x10 => some s.cur.regs.scrflt
  | 0x11 => some (BitVec.ofNat 64 (wsize s.cur * 2 ^ 32 +
      bitSum [(s.cur.regs.scrMore, 2), (s.cur.regs.scrWr, 1), (s.cur.regs.scrV, 0)]))
  | 0x12 => some (BitVec.ofNat 64 (bitSum [(cuep s.cur, 48)] + s.cur.regs.thrc.toNat * 2 ^ 32 +
      (s.act (s.cur.root.getD s.cur.id)).tokens % 2 ^ 32))
  | 0x13 => some (BitVec.ofNat 64 (min (s.cur.regs.undeclPj / (1000 * s.cur.regs.undeclDen)) (2 ^ 64 - 1)))
  | 0x14 => some (if s.cur.regs.fdem then 1 else 0)
  | 0x20 => some s.cur.regs.faultPc
  | 0x21 => some (BitVec.ofNat 64 (s.cur.regs.faultCode.toNat + if s.cur.regs.faultH then 256 else 0))
  | 0x22 => some s.cur.regs.faultArg
  | 0x30 => some s.cur.regs.lbase
  | 0x31 => some (BitVec.ofNat 64 (loopValue s.cur.regs.lb[0]))
  | 0x32 => some (BitVec.ofNat 64 (loopValue s.cur.regs.lb[1]))
  | 0x33 => some (BitVec.ofNat 64 (loopValue s.cur.regs.lb[2]))
  | 0x34 => some (BitVec.ofNat 64 s.cur.regs.lc[0].toNat)
  | 0x35 => some (BitVec.ofNat 64 s.cur.regs.lc[1].toNat)
  | 0x36 => some (BitVec.ofNat 64 s.cur.regs.lc[2].toNat)
  | _ => none

/-- R119: LBn as a value written to it says. -/
def loopOf (v : Dbl) : LoopReg :=
  { count := BitVec.ofNat 32 (v.toNat / 2 ^ 32), len := BitVec.ofNat 8 (v.toNat / 2 ^ 16), start := BitVec.ofNat 8 (v.toNat / 2 ^ 8),
    on := decide (v.toNat % 2 = 1) }

/-- R119: the registers of an act after MTS writes `v` to the register of a number that it may write. -/
def afterMts (r : Regs) (v : Dbl) : Nat → Regs
  | 0x10 | 0x11 => { r with scrflt := 0, scrMore := false, scrWr := false, scrV := false }
  | 0x12 => { r with thrc := 0 }
  | 0x13 => { r with undeclPj := 0, undeclDen := 1 }
  | 0x14 => { r with fdem := false }
  | 0x20 => { r with faultPc := v }
  | 0x21 => { r with faultCode := BitVec.ofNat 8 v.toNat }
  | 0x22 => { r with faultArg := v }
  | 0x30 => { r with lbase := 4 * (v / 4) }
  | 0x31 => { r with lb := r.lb.set 0 (loopOf v) }
  | 0x32 => { r with lb := r.lb.set 1 (loopOf v) }
  | 0x33 => { r with lb := r.lb.set 2 (loopOf v) }
  | 0x34 => { r with lc := r.lc.set 0 (BitVec.ofNat 32 v.toNat) }
  | 0x35 => { r with lc := r.lc.set 1 (BitVec.ofNat 32 v.toNat) }
  | 0x36 => { r with lc := r.lc.set 2 (BitVec.ofNat 32 v.toNat) }
  | _ => r

/-- Nothing but the region state, the marks due and what PastCur names of the act differs; no general register does. -/
def RegionInstr (s t : State) (r : RegionSt) : Prop :=
  SameG s t ∧ (∀ id, id ≠ s.me → t.act id = s.act id) ∧ t.mem = s.mem ∧ t.ctxs = s.ctxs ∧ t.fab = s.fab ∧
  t.cur.region = r ∧ t.cur.regs.acpc = s.cur.regs.advance.acpc ∧ t.cur.issue = s.cur.issue ∧ t.cur.life = s.cur.life

/-- The act holds its instruction: not one thing differs. -/
def Holds (s : State) (i : Instr) : Prop := exec i s = .next s

/-- Nothing but the issue buffer and what PastCur names of the act differs; `e` is put at the end of the buffer. -/
def Issues (s t : State) (e : IssueEntry) : Prop :=
  t = { s with acts := t.acts } ∧ SameG s t ∧ (∀ id, id ≠ s.me → t.act id = s.act id) ∧
  t.cur.issue = s.cur.issue ++ [e] ∧ t.cur.regs.acpc = s.cur.regs.advance.acpc ∧ t.cur.regs.c = s.cur.regs.c

/-- R139: the entry that the instruction at the act's ACPC puts into the issue buffer. -/
def entryOf (s : State) (k : IssueKind) (cmd : Quad) : IssueEntry :=
  { kind := k, cmd := cmd, addr := s.cur.regs.acpc, ctx := s.cur.ctx, stamp := s.cur.regs.stamp.toNat, held := false,
    late := false }

end Sys2Proof.Claims

open Sys2Proof Machine Claims

/-- R119, R162: MFS reads the fields of each register of the tables into rd, reserved bits as zero, and leaves everything else; every
number completes. -/
def Sys2Proof.Claims.RegistersRead : Prop :=
  ∀ (s : State) (d : Reg) (n : BitVec 16), ∃ t v, exec (.mfs d n) s = .next t ∧ Wrote s t d v ∧ PastInstr s t ∧
    ∀ x, systemValue s n.toNat = some x → v = x

/-- R117, R119, R162: MTS writes the RW fields of a register, clears its RS fields whatever it is given, and leaves everything else;
LBASE and LB0 to LB2 are written while H is 1. -/
def Obligations.SystemRegisterWrites : Prop :=
  ∀ (s : State) (a : Reg) (n : BitVec 16),
    (n.toNat ∈ [0x10, 0x11, 0x12, 0x13, 0x14, 0x20, 0x21, 0x22, 0x34, 0x35, 0x36] ∨
      (n.toNat ∈ [0x30, 0x31, 0x32, 0x33] ∧ s.cur.regs.faultH = true)) →
    ∃ t, exec (.mts a n) s = .next t ∧ SameG s t ∧ (∀ id, id ≠ s.me → t.act id = s.act id) ∧ t = { s with acts := t.acts } ∧
      t.cur.regs = (afterMts s.cur.regs (s.g a) n.toNat).advance

/-- R117: MTS to a register that is only read, and to LBASE or an LBn while H is 0, raises 0x02 with its word. -/
def Sys2Proof.Claims.SystemRegisterTraps : Prop :=
  ∀ (s : State) (a : Reg) (n : BitVec 16),
    (n.toNat ≤ 4 ∨ (0x30 ≤ n.toNat ∧ n.toNat ≤ 0x33 ∧ s.cur.regs.faultH = false)) →
    ∃ t, exec (.mts a n) s = .next t ∧ TakesTrap s t 0x02 (wordArg (.mts a n))

/-- R117, R119, R162: what MFS reads, and where MTS traps. -/
def Obligations.SystemRegisterReads : Prop := Claims.RegistersRead ∧ Claims.SystemRegisterTraps

/-- R119, R162, R163, R432: CNT reads a context counter of the act's current context into rd; an identifier that stands for no counter
reads as zero. MFS completes for every register, writes rd alone, and reads STAMP whole. -/
def Obligations.CounterReads : Prop :=
  (∀ (s : State) (d : Reg) (n : BitVec 16), ∃ t v, exec (.mfs d n) s = .next t ∧ Wrote s t d v ∧ PastInstr s t ∧
    (n = 0x04 → v = s.cur.regs.stamp)) ∧
  ∀ (s : State) (d : Reg) (n : BitVec 16), ∃ t v, exec (.cnt d n) s = .next t ∧ Wrote s t d v ∧ PastInstr s t ∧
    (n.toNat ∈ [0x10, 0x11, 0x12, 0x20, 0x21, 0x30, 0x31, 0x32, 0x40, 0x41, 0x50, 0x51, 0x52, 0x53] →
      v = BitVec.ofNat 64 (tally n.toNat s.curCtx.counters)) ∧
    (n.toNat < 0x10 ∨ 0x80 ≤ n.toNat → v = 0)

/-- R134, R135, R137: SCENE.SWAP arms, or disarms where it names the scene in force; SCENE.GATE opens or closes the ports it names;
SCENE.MARK with a period sets it and counts afresh. Each changes nothing else of the region. -/
def Sys2Proof.Claims.SceneControlsSet : Prop :=
  (∀ (s : State) (k : BitVec 2), s.strokeWaits s.me = false → ∃ t, exec (.sceneSwap k) s = .next t ∧
    RegionInstr s t { s.cur.region with
      arm := decide (s.cur.region.cur ≠ k.toNat), tgt := if s.cur.region.cur = k.toNat then 0 else k.toNat,
      armed := if s.cur.region.cur = k.toNat then s.cur.region.armed else s.cycle }) ∧
  (∀ (s : State) (a : Reg) (o : Bool), (∀ j < 64, (s.g a).getLsbD j = true →
      s.cur.region.holds { die := s.cur.region.die, tile := 256 + j } = true) →
    ∃ t, exec (.sceneGate a o) s = .next t ∧
      RegionInstr s t { s.cur.region with
        gates := if o then s.cur.region.gates ||| s.g a else s.cur.region.gates &&& ~~~(s.g a),
        quiet := s.cur.region.quiet && !o }) ∧
  (∀ (s : State) (a : Reg), 0 < (s.g a).toNat → (s.g a).toNat < 2 ^ 32 → ∃ t, exec (.sceneMark a) s = .next t ∧
    RegionInstr s t { s.cur.region with period := BitVec.ofNat 32 (s.g a).toNat, count := 0 } ∧ t.cur.markDue = s.cur.markDue) ∧
  (∀ (s : State) (a : Reg), s.g a = 0 → ∃ t, exec (.sceneMark a) s = .next t ∧ RegionInstr s t s.cur.region ∧
    t.cur.markDue = s.cur.markDue + 1)

/-- R132, R135, R137: SCENE.LOAD of the scene in force or of the target of an armed swap, and SCENE.MARK of a period of more than 32
bits, raise 0x01; a misaligned SCENE.LOAD raises 0x03; SCENE.GATE of a port outside the region raises 0x12 with the mask. -/
def Sys2Proof.Claims.SceneTraps : Prop :=
  (∀ (s : State) (a : Reg) (k : BitVec 2), s.strokeWaits s.me = false →
    (s.cur.region.cur = k.toNat ∨ (s.cur.region.arm = true ∧ s.cur.region.tgt = k.toNat)) →
      ∃ t, exec (.sceneLoad a k) s = .next t ∧ TakesTrap s t 0x01 (wordArg (.sceneLoad a k))) ∧
  (∀ (s : State) (a : Reg) (k : BitVec 2), s.strokeWaits s.me = false → s.cur.region.cur ≠ k.toNat → s.cur.region.arm = false → (s.g a).toNat % 64 ≠ 0 →
      ∃ t, exec (.sceneLoad a k) s = .next t ∧ TakesTrap s t 0x03 (s.g a)) ∧
  (∀ (s : State) (a : Reg), 2 ^ 32 ≤ (s.g a).toNat →
      ∃ t, exec (.sceneMark a) s = .next t ∧ TakesTrap s t 0x01 (wordArg (.sceneMark a))) ∧
  (∀ (s : State) (a : Reg) (o : Bool) (j : Nat), j < 64 → (s.g a).getLsbD j = true →
      s.cur.region.holds { die := s.cur.region.die, tile := 256 + j } = false →
      ∃ t, exec (.sceneGate a o) s = .next t ∧ TakesTrap s t 0x12 (s.g a))

/-- R132, R134, R135, R137: the controls of a region, and where they trap. -/
def Obligations.SceneControls : Prop := Claims.SceneControlsSet ∧ Claims.SceneTraps

/-- R132, R133, R136, R256: SCENE.LOAD makes a slot LOADING with a load of its image outstanding, and the act goes on; SCENE.WAIT
completes with no load outstanding and no error kept, and holds while a load is outstanding; SCENE.RUN of the scene in force only
cancels an armed swap; while a bell stroke of their cycle has still to act (R265), SCENE.LOAD, SCENE.SWAP and SCENE.RUN hold; SCENE.CURT whose curtain every sink has consumed completes with the gates as they are. -/
def Obligations.SceneSlots : Prop :=
  (∀ (s : State) (a : Reg) (k : BitVec 2), s.strokeWaits s.me = false → s.cur.region.cur ≠ k.toNat → s.cur.region.arm = false → (s.g a).toNat % 64 = 0 →
    (s.cur.slot k.toNat).st ≠ .retiring →
    ∃ t, exec (.sceneLoad a k) s = .next t ∧ SameG s t ∧ t.mem = s.mem ∧ t.cur.regs.acpc = s.cur.regs.advance.acpc ∧
      (t.cur.slot k.toNat).st = .loading ∧ (t.cur.slot k.toNat).error = none ∧
      ∃ j, (t.cur.slot k.toNat).job = some j ∧ j.image = s.g a ∧ j.begun = false) ∧
  (∀ (s : State) (k : BitVec 2), (s.cur.slot k.toNat).job = none → (s.cur.slot k.toNat).error = none →
    ∃ t, exec (.sceneWait k) s = .next t ∧ SameG s t ∧ PastInstr s t) ∧
  (∀ (s : State) (k : BitVec 2), (s.cur.slot k.toNat).job ≠ none → Holds s (.sceneWait k) ∧ Holds s (.sceneRun k)) ∧
  (∀ (s : State) (a : Reg) (k : BitVec 2), s.strokeWaits s.me = true →
    Holds s (.sceneLoad a k) ∧ Holds s (.sceneSwap k) ∧ Holds s (.sceneRun k)) ∧
  (∀ (s : State) (k : BitVec 2), (s.cur.slot k.toNat).job = none → (s.cur.slot k.toNat).error = none →
    s.strokeWaits s.me = false → s.cur.region.cur = k.toNat → ∃ t, exec (.sceneRun k) s = .next t ∧
      RegionInstr s t { s.cur.region with arm := false, tgt := 0 }) ∧
  (∀ (s : State) (c : MarkerRun), s.cur.curtain = some c → c.sinks = [] →
    ∃ t, exec .sceneCurt s = .next t ∧ SameG s t ∧ t.cur.curtain = none ∧ t.cur.region = { s.cur.region with quiet := true } ∧
      t.cur.regs.acpc = s.cur.regs.advance.acpc)

/-- R136: SCENE.CURT with no curtain in progress closes every gate and takes the next marker number. -/
def Obligations.CurtainCloses : Prop :=
  ∀ s : State, s.cur.curtain = none →
    ∃ t, exec .sceneCurt s = .next t ∧ SameG s t ∧ t.cur.region.gates = 0 ∧ t.cur.region.marker = s.cur.region.marker + 1

/-- R139, R141: CMD.PACK makes a command register of two general ones; CMD.ISSUE and CMD.APPEND put a copy of one, and FENCE.Q a
join, at the end of the issue buffer. -/
def Sys2Proof.Claims.CommandsEnter : Prop :=
  (∀ (s : State) (a b : Reg) (c : BitVec 3), ∃ t, exec (.cmdPack a b c) s = .next t ∧ SameG s t ∧ t = { s with acts := t.acts } ∧
    (∀ id, id ≠ s.me → t.act id = s.act id) ∧ t.cur.regs.acpc = s.cur.regs.advance.acpc ∧ t.cur.issue = s.cur.issue ∧
    ∀ k : Fin 8, t.cur.regs.c[k] = if k.val = c.toNat then BitVec.ofNat 128 ((s.g a).toNat * 2 ^ 64 + (s.g b).toNat)
      else s.cur.regs.c[k]) ∧
  (∀ (s : State) (c : BitVec 3), s.cur.taskOpen = true → pqGranted s s.cur (cmdPq (s.c c)) = true → commandsHeld s.cur.issue < 8 →
    ∃ t, exec (.cmdIssue c) s = .next t ∧ Issues s t (entryOf s .issue (s.c c))) ∧
  (∀ (s : State) (a : Reg) (c : BitVec 3), s.cur.taskOpen = true → (s.g a).toNat % 32 = 0 → commandsHeld s.cur.issue < 8 →
    ∃ t, exec (.cmdAppend a c) s = .next t ∧ Issues s t (entryOf s (.append (s.g a)) (s.c c))) ∧
  (∀ (s : State) (a : Reg), s.g a ≠ 0 → s.g a &&& ~~~s.curCtx.qmask = 0 →
    ∃ t, exec (.fenceQ a) s = .next t ∧ Issues s t (entryOf s (.join (s.g a)) 0)) ∧
  (∀ (s : State) (a : Reg), s.g a = 0 → ∃ t, exec (.fenceQ a) s = .next t ∧ SameG s t ∧ PastInstr s t)

/-- R139, R140, R141: a port or queue that the act does not hold raises 0x12, a misaligned chain descriptor 0x03, and a full issue
buffer holds the instruction. -/
def Sys2Proof.Claims.CommandTraps : Prop :=
  (∀ (s : State) (c : BitVec 3), s.cur.taskOpen = true → pqGranted s s.cur (cmdPq (s.c c)) = false →
    ∃ t, exec (.cmdIssue c) s = .next t ∧ TakesTrap s t 0x12 (BitVec.ofNat 64 (cmdPq (s.c c)))) ∧
  (∀ (s : State) (a : Reg) (c : BitVec 3), s.cur.taskOpen = true → (s.g a).toNat % 32 ≠ 0 →
    ∃ t, exec (.cmdAppend a c) s = .next t ∧ TakesTrap s t 0x03 (s.g a)) ∧
  (∀ (s : State) (c : BitVec 3), s.cur.taskOpen = true → pqGranted s s.cur (cmdPq (s.c c)) = true → 8 ≤ commandsHeld s.cur.issue →
    Holds s (.cmdIssue c)) ∧
  (∀ (s : State) (a b : Reg), (64 ≤ (s.g a).toNat ∨ s.curCtx.qmask.getLsbD (s.g a).toNat = false) →
    ∃ t, exec (.cmdSeqw a b) s = .next t ∧ TakesTrap s t 0x12 (s.g a)) ∧
  (∀ (s : State) (a : Reg), s.g a &&& ~~~s.curCtx.qmask ≠ 0 → ∃ t, exec (.fenceQ a) s = .next t ∧ TakesTrap s t 0x12 (s.g a))

/-- R139 to R141: commands enter the issue buffer, or are turned away. -/
def Obligations.CommandsIssued : Prop := Claims.CommandsEnter ∧ Claims.CommandTraps

/-- R140, R142, R143, R153: the waits. CMD.SEQW completes once the sequence number of its queue has reached rb, FENCE.S once
no access of the act is pending, and every stream that its region had opened before it has ended, EVT.WAIT once its bit is set and no act of a lower ACTID waits for it, clearing the bit. -/
def Sys2Proof.Claims.WaitsEnd : Prop :=
  (∀ (s : State) (a b : Reg), (s.g a).toNat < 64 → s.curCtx.qmask.getLsbD (s.g a).toNat = true →
    (s.g b).toNat ≤ (s.queue (.ctx (s.rootOf s.cur.ctx) (s.g a).toNat)).seq →
    ∃ t, exec (.cmdSeqw a b) s = .next t ∧ SameG s t ∧ t = { s with acts := t.acts } ∧ t.cur.regs.acpc = s.cur.regs.advance.acpc ∧
      t.cur.seqw = none) ∧
  (∀ (s : State) (n : BitVec 3), n.toNat < 5 → accessesPending s s.me = false → s.fencedStreams = [] →
    ∃ t, exec (.fenceS n) s = .next t ∧ SameG s t ∧ t = { s with acts := t.acts } ∧ t.cur.regs.acpc = s.cur.regs.advance.acpc ∧
      t.cur.regs.fdem = (s.cur.regs.fdem || (decide (n = 4) && (s.ctx (s.rootOf s.cur.ctx)).fpol))) ∧
  (∀ (s : State) (e : BitVec 4), speculative s s.cur = false → s.curCtx.ev.getLsbD e.toNat = true → evtTaken s e.toNat = false →
    ∃ t, exec (.evtWait e) s = .next t ∧ SameG s t ∧ t.mem = s.mem ∧ t.cur.regs.acpc = s.cur.regs.advance.acpc ∧
      ∀ j < 16, t.curCtx.ev.getLsbD j = (s.curCtx.ev.getLsbD j && decide (j ≠ e.toNat)))

/-- R140, R142, R151: the waits hold. -/
def Sys2Proof.Claims.WaitsHold : Prop :=
  (∀ (s : State) (n : BitVec 3), n.toNat < 5 → (accessesPending s s.me = true ∨ s.fencedStreams ≠ []) →
    ∃ t, exec (.fenceS n) s = .next t ∧ t = { s with acts := t.acts } ∧ t.cur.regs = s.cur.regs ∧
      t.cur.fenceS = some s.fencedStreams) ∧
  (∀ (s : State) (b : BitVec 5), (s.curCtx.bar b).count ≠ 0 → recordedPhase s b = some (s.curCtx.bar b).phase →
    Holds s (.barWait b)) ∧
  (∀ (s : State) (a b : Reg), (s.g a).toNat < 64 → s.curCtx.qmask.getLsbD (s.g a).toNat = true →
    (s.queue (.ctx (s.rootOf s.cur.ctx) (s.g a).toNat)).seq < (s.g b).toNat →
    ∃ t, exec (.cmdSeqw a b) s = .next t ∧ t.cur.regs = s.cur.regs)

/-- R140, R142, R143, R151, R153: when the waits complete, and when they hold. -/
def Obligations.WaitsComplete : Prop := Claims.WaitsEnd ∧ Claims.WaitsHold

/-- R154: WAIT completes once some event bit that ra [15:0] names is set, and at once with a mask of 0, whatever bits [63:16] are; until
then it holds. It clears no bit. -/
def Obligations.EventWaits : Prop :=
  (∀ (s : State) (a : Reg), ((s.g a).setWidth 16 = 0 ∨ s.curCtx.ev &&& (s.g a).setWidth 16 ≠ 0) →
    ∃ t, exec (.wait a) s = .next t ∧ SameG s t ∧ PastInstr s t) ∧
  (∀ (s : State) (a : Reg), (s.g a).setWidth 16 ≠ 0 → s.curCtx.ev &&& (s.g a).setWidth 16 = 0 → Holds s (.wait a))

/-- R151, R152: BAR.ARRIVE counts an arrival, the last of which advances the phase, and records the phase; BAR.WAIT completes once the
phase differs from the one recorded, and at once with none recorded; BAR.INIT gives a barrier without arrivals its count. -/
def Obligations.BarrierResults : Prop :=
  (∀ (s : State) (a : Reg) (b : BitVec 5), speculative s s.cur = false → LogReady s → (s.g a).toNat < 256 →
    (s.curCtx.bar b).arrived = 0 →
    ∃ t, exec (.barInit a b) s = .next t ∧ SameG s t ∧ t.cur.regs.acpc = s.cur.regs.advance.acpc ∧
      (t.curCtx.bar b).count = (s.g a).toNat) ∧
  (∀ (s : State) (b : BitVec 5), speculative s s.cur = false → LogReady s → (s.curCtx.bar b).count ≠ 0 →
    recordedPhase s b ≠ some (s.curCtx.bar b).phase → accessesPending s s.me = false → stagedBy s s.me = false →
    ∃ t, exec (.barArrive b) s = .next t ∧ SameG s t ∧ t.mem = s.mem ∧ t.cur.regs.acpc = s.cur.regs.advance.acpc ∧
      recordedPhase t b = some (s.curCtx.bar b).phase ∧ (t.curCtx.bar b).count = (s.curCtx.bar b).count ∧
      (if (s.curCtx.bar b).arrived + 1 = (s.curCtx.bar b).count then
        (t.curCtx.bar b).phase = (s.curCtx.bar b).phase + 1 ∧ (t.curCtx.bar b).arrived = 0
       else (t.curCtx.bar b).phase = (s.curCtx.bar b).phase ∧ (t.curCtx.bar b).arrived = (s.curCtx.bar b).arrived + 1) ∧
      ∀ c : BitVec 5, c ≠ b → t.curCtx.bar c = s.curCtx.bar c) ∧
  (∀ (s : State) (b : BitVec 5), (s.curCtx.bar b).count ≠ 0 → recordedPhase s b ≠ some (s.curCtx.bar b).phase →
    ∃ t, exec (.barWait b) s = .next t ∧ SameG s t ∧ PastInstr s t)

/-- R152: BAR.INIT sets the participant count and the phase 0, clears the arrivals, and clears every act's record of it; the context's
other barriers stand. -/
def Sys2Proof.Claims.BarInitSets : Prop :=
  ∀ (s : State) (a : Reg) (b : BitVec 5), speculative s s.cur = false → LogReady s → (s.g a).toNat < 256 →
    (s.curCtx.bar b).arrived = 0 →
    ∃ t, exec (.barInit a b) s = .next t ∧ SameG s t ∧ t.mem = s.mem ∧ t.cur.regs.acpc = s.cur.regs.advance.acpc ∧
      t.curCtx.bar b = { count := (s.g a).toNat, phase := 0, arrived := 0 } ∧
      (∀ id, assoc? (barKey s.cur.ctx b) (t.act id).phases = none) ∧ ∀ c : BitVec 5, c ≠ b → t.curCtx.bar c = s.curCtx.bar c

/-- R151, R152: an unconfigured barrier raises 0x12 with its number, and BAR.INIT raises 0x12 with ra above 255, and with the
barrier's number while arrivals are pending. -/
def Sys2Proof.Claims.BarrierTraps : Prop :=
  (∀ (s : State) (b : BitVec 5), (s.curCtx.bar b).count = 0 →
    (∃ t, exec (.barWait b) s = .next t ∧ TakesTrap s t 0x12 (BitVec.ofNat 64 b.toNat)) ∧
    (speculative s s.cur = false → LogReady s →
      ∃ t, exec (.barArrive b) s = .next t ∧ TakesTrap s t 0x12 (BitVec.ofNat 64 b.toNat))) ∧
  (∀ (s : State) (a : Reg) (b : BitVec 5), speculative s s.cur = false → LogReady s →
    (256 ≤ (s.g a).toNat → ∃ t, exec (.barInit a b) s = .next t ∧ TakesTrap s t 0x12 (s.g a)) ∧
    ((s.g a).toNat < 256 → (s.curCtx.bar b).arrived ≠ 0 →
      ∃ t, exec (.barInit a b) s = .next t ∧ TakesTrap s t 0x12 (BitVec.ofNat 64 b.toNat)))

/-- R151, R152: BAR.INIT, and where the barriers trap. -/
def Obligations.BarrierInit : Prop := Claims.BarInitSets ∧ Claims.BarrierTraps

/-- R153, R155: EVT.SIG sets its bit of the context and no other; CUE, which never waits, places a window of rb microseconds and of
its intensity, behind the act's windows or in place of its last one. -/
def Obligations.EventsAndCues : Prop :=
  (∀ (s : State) (e : BitVec 4), speculative s s.cur = false → LogReady s → accessesPending s s.me = false →
    ∃ t, exec (.evtSig e) s = .next t ∧ SameG s t ∧ t.mem = s.mem ∧ t.cur.regs.acpc = s.cur.regs.advance.acpc ∧
      ∀ j < 16, t.curCtx.ev.getLsbD j = (s.curCtx.ev.getLsbD j || decide (j = e.toNat))) ∧
  (∀ (s : State) (a b : Reg) (x : BitVec 8) (e : Bool), ∃ t, exec (.cue a b x e) s = .next t ∧ SameG s t ∧
    t = { s with acts := t.acts } ∧ (∀ id, id ≠ s.me → t.act id = s.act id) ∧ t.cur.regs.acpc = s.cur.regs.advance.acpc ∧
    (x ≠ 0 → (s.g b).toNat % 2 ^ 16 ≠ 0 → ∃ c, t.cur.cues.getLast? = some c ∧ c.len = (s.g b).toNat % 2 ^ 16 ∧ c.intensity = x ∧
      c.start = none ∧ c.onset = if e then none else some (s.cycle + (s.g a).toNat % 2 ^ 32)))

namespace Sys2Proof.Claims
open Sys2Proof Machine

/-! ## Tasks, tensor identifiers, operand memory and contexts -/

/-- R156: the eight doubles at a physical address. -/
def dblsAt (m : Mem) (pa k : Nat) : Dbl := BitVec.ofNat 64 (m.readN (pa + 8 * k) 8)

/-- R158: the sixteen doubles of a context descriptor whose blocks of 64 bytes stand at `p0` and `p1`. -/
def descAt (m : Mem) (p0 p1 k : Nat) : Dbl :=
  if 8 ≤ k ∧ k < 16 then BitVec.ofNat 64 (m.readN (p1 + 8 * (k - 8)) 8)
  else if k < 8 then BitVec.ofNat 64 (m.readN (p0 + 8 * k) 8) else 0

/-- The step past the instruction of the act, its general registers as before. -/
def StepsPast (s t : State) : Prop := SameG s t ∧ t.cur.regs.acpc = s.cur.regs.advance.acpc

end Sys2Proof.Claims

open Sys2Proof Machine Claims

/-- R146, R295, R296, R161: TASK.STAMP opens a task with its stamp, alone in it and speculative; TASK.DONE ends the act's part; HALT
ends it too, and stops the act, which stays until its issue buffer is empty. -/
def Sys2Proof.Claims.TasksOpenAndEnd : Prop :=
  (∀ (s : State) (a : Reg), LogReady s → stampTaken s.curCtx (s.g a).toNat = false → s.cur.lastStamp < (s.g a).toNat →
    ∃ t k, exec (.taskStamp a) s = .next t ∧ StepsPast s t ∧ t.mem = s.mem ∧ (∀ id, id ≠ s.me → t.act id = s.act id) ∧
      t.cur.taskOpen = true ∧ t.cur.regs.stamp = s.g a ∧ taskOf t t.cur = some k ∧ k.act = s.me ∧ k.parts = [s.me] ∧
      k.step1 = false ∧ k.lines = [] ∧ k.ranges = []) ∧
  (∀ (s : State) (k : Task), LogReady s → taskOf s s.cur = some k →
    ∃ t, exec .taskDone s = .next t ∧ StepsPast s t ∧ t.mem = s.mem ∧ t.cur.taskOpen = false ∧ t.cur.taskDone = true ∧
      t.cur.prevStamp = k.stamp ∧ ∀ j ∈ (t.ctx s.cur.ctx).tasks, j.stamp = k.stamp → s.me ∉ j.parts) ∧
  (∀ (s : State) (k : Task), LogReady s → taskOf s s.cur = some k → s.cur.issue ≠ [] →
    ∃ t, exec .halt s = .next t ∧ StepsPast s t ∧ t.mem = s.mem ∧ t.cur.life = .halted ∧ t.cur.taskOpen = false ∧
      ∀ j ∈ (t.ctx s.cur.ctx).tasks, j.stamp = k.stamp → s.me ∉ j.parts)

/-- R146, R296: TASK.STAMP of a stamp that the domain holds or has passed, or that is not above the act's last, raises 0x22 with
it. -/
def Sys2Proof.Claims.StampRefused : Prop :=
  ∀ (s : State) (a : Reg), LogReady s → (stampTaken s.curCtx (s.g a).toNat = true ∨ (s.g a).toNat ≤ s.cur.lastStamp) →
    ∃ t, exec (.taskStamp a) s = .next t ∧ TakesTrap s t 0x22 (s.g a)

/-- R146, R161, R295, R296: tasks open and end, and a stamp that is refused traps. -/
def Obligations.TaskResults : Prop := Claims.TasksOpenAndEnd ∧ Claims.StampRefused

/-- R147, R236: TASK.SPAWN reads its descriptor of 32 bytes at `pa` and starts an act on a free act context of the block of its
rectangle's corner, at the entry, with g1 the argument, in a task of its own with the descriptor's stamp. -/
def Obligations.SpawnResult : Prop :=
  ∀ (s s1 : State) (a : Reg) (pa w : Nat) (r : SpawnRect) (n entry arg : Dbl), s.cur.life = .running → s.cur.taskOpen = true →
    speculative s s.cur = false → LogReady s → promptAccess s (s.g a) 32 .read = (.ok pa, s1) →
    n = dblsAt s.mem pa 0 → entry = dblsAt s.mem pa 1 → w = (dblsAt s.mem pa 2).toNat → arg = dblsAt s.mem pa 3 → w < 2 ^ 32 →
    r = { x := w % 256, y := w / 256 % 256, w := w / 65536 % 256, h := w / 16777216 } →
    spawnOutside s s.cur r = false → stampTaken s.curCtx n.toNat = false → s.cur.regs.stamp.toNat < n.toNat →
    freeSlots s s.cur.region.die (blockOf (s.cur.region.x0 + r.x) (s.cur.region.y0 + r.y)) ≠ [] →
    ∃ t id, exec (.taskSpawn a) s = .next t ∧ StepsPast s t ∧
      ((∀ j l, s.cur.launch = some j → s.launch? j = some l → l.done = 0) → t.mem = s.mem) ∧
      (∃ k ∈ freeSlots s s.cur.region.die (blockOf (s.cur.region.x0 + r.x) (s.cur.region.y0 + r.y)),
        id = mkActId s.cur.region.die (blockOf (s.cur.region.x0 + r.x) (s.cur.region.y0 + r.y)) k) ∧
      (t.act id).life = .running ∧ (t.act id).ctx = s.cur.ctx ∧ (t.act id).taskOpen = true ∧ (t.act id).regs.stamp = n ∧
      (t.act id).regs.acpc = 4 * (entry / 4) ∧ (t.act id).regs.readG 1 = arg ∧
      (t.act id).region.x0 = s.cur.region.x0 + r.x ∧ (t.act id).region.y0 = s.cur.region.y0 + r.y ∧
      (t.act id).region.w = r.w ∧ (t.act id).region.h = r.h ∧ (t.act id).region.cur = s.cur.region.cur

/-- R156, R278: TID.DEF takes the entry from the 64 bytes of its descriptor where they pass the checks, and raises 0x01 where they
do not; TID.DROP clears V of its entry only; TID.GET stores the entry's 64 bytes. -/
def Obligations.TidResults : Prop :=
  (∀ (s s1 : State) (a : Reg) (n : BitVec 8) (pa : Nat), s.cur.taskOpen = true → speculative s s.cur = false →
    tidBusy s s.cur.ctx n.toNat = false → promptAccess s (s.g a) 64 .read = (.ok pa, s1) →
    ∃ t, exec (.tidDef a n) s = .next t ∧
      (tensorOk (dblsAt s.mem pa) = true → StepsPast s t ∧ t.mem = s.mem ∧ t.cur.ctx = s.cur.ctx ∧
        t.curCtx.tid n.toNat = TensorEntry.ofWords (dblsAt s.mem pa) ∧
        ∀ j, j ≠ n.toNat → t.curCtx.tid j = s.curCtx.tid j) ∧
      (tensorOk (dblsAt s.mem pa) = false → TakesTrap s t 0x01 (wordArg (.tidDef a n)))) ∧
  (∀ (s : State) (n : BitVec 8), speculative s s.cur = false → tidBusy s s.cur.ctx n.toNat = false →
    ∃ t, exec (.tidDrop n) s = .next t ∧ StepsPast s t ∧ t.mem = s.mem ∧
      t.curCtx.tid n.toNat = { s.curCtx.tid n.toNat with v := false } ∧
      ∀ j, j ≠ n.toNat → t.curCtx.tid j = s.curCtx.tid j) ∧
  (∀ (s s1 : State) (a : Reg) (n : BitVec 8) (pa : Nat), MemOk s → s.cur.taskOpen = true → speculative s s.cur = false →
    promptAccess s (s.g a) 64 .write = (.ok pa, s1) →
    ∃ t, exec (.tidGet a n) s = .next t ∧ StepsPast s t ∧ Stored s t pa 64 (s.curCtx.tid n.toNat).bytes)

/-- R157, R195, R275: OPM.CLAIM takes the slots that ra and rb name where all are free, and gives 1; otherwise it takes none and
gives 0. OPM.RELEASE gives back those that the act owns, and their mask. -/
def Obligations.OperandSlots : Prop :=
  (∀ (s : State) (d a b : Reg) (l : TileId), speculative s s.cur = false → opmTile s.cur.region (s.g a) = some l →
    ∃ t, exec (.opmClaim d a b) s = .next t ∧ t.mem = s.mem ∧ t.cur.regs.acpc = s.cur.regs.advance.acpc ∧
      ((∀ k < 16, (s.g b).getLsbD k = true → s.opSlotFree l k = true) →
        Wrote s t d 1 ∧ ∀ k < 16, ((t.tile l).opSlot k).owner =
          if (s.g b).getLsbD k then some s.me else ((s.tile l).opSlot k).owner) ∧
      (∀ k < 16, (s.g b).getLsbD k = true → s.opSlotFree l k = false → Wrote s t d 0 ∧ t.fab = s.fab)) ∧
  (∀ (s : State) (d a b : Reg) (l : TileId), speculative s s.cur = false → opmTile s.cur.region (s.g a) = some l →
    (∀ k < 16, slotNamed s l k = false) →
    ∃ t v, exec (.opmRelease d a b) s = .next t ∧ Wrote s t d v ∧ t.mem = s.mem ∧
      (∀ k < 64, v.getLsbD k = true ↔ k < 16 ∧ (s.g b).getLsbD k = true ∧ ((s.tile l).opSlot k).owner = some s.me) ∧
      ∀ k < 16, ((t.tile l).opSlot k).owner = if v.getLsbD k then none else ((s.tile l).opSlot k).owner)

/-- R158, R295: CTX.ENTER moves the act to a child, and CTX.EXIT back to the context it came from; each opens a task there with the
stamp one above the highest registered. -/
def Sys2Proof.Claims.EnterAndExit : Prop :=
  (∀ (s : State) (a : Reg) (c : Nat), speculative s s.cur = false → LogReady s → childNamed s (s.g a) = some c →
    (s.ctx c).revoking = false → (s.ctx c).revoked = false → s.wingsReady c (actDie s.me) = true →
    ∃ t, exec (.ctxEnter a) s = .next t ∧ StepsPast s t ∧ t.mem = s.mem ∧ t.cur.ctx = c ∧
      t.cur.ctxStack = s.cur.ctx :: s.cur.ctxStack ∧ t.cur.taskOpen = true ∧
      t.cur.regs.stamp = BitVec.ofNat 64 ((s.ctx c).highest + 1)) ∧
  (∀ (s : State) (c : Nat) (rest : List Nat), speculative s s.cur = false → LogReady s → s.cur.ctxStack = c :: rest →
    ∃ t, exec .ctxExit s = .next t ∧ StepsPast s t ∧ t.mem = s.mem ∧ t.cur.ctx = c ∧ t.cur.ctxStack = rest ∧
      t.cur.taskOpen = true ∧ t.cur.regs.stamp = BitVec.ofNat 64 ((s.ctx c).highest + 1))

/-- R117, R357: CTX.GRANT, REVOKE, ENTER and STAT of a context that is no child of the current one, and CTX.EXIT in the context of
launch, raise 0x02; CTX.ENTER and CTX.GRANT of a child that is revoked, or being revoked, raise 0x12 with it. -/
def Sys2Proof.Claims.ContextTraps : Prop :=
  (∀ (s : State) (a b d : Reg), speculative s s.cur = false → LogReady s → childNamed s (s.g a) = none →
    (∃ t, exec (.ctxEnter a) s = .next t ∧ TakesTrap s t 0x02 (wordArg (.ctxEnter a))) ∧
    (∃ t, exec (.ctxRevoke a) s = .next t ∧ TakesTrap s t 0x02 (wordArg (.ctxRevoke a))) ∧
    (∃ t, exec (.ctxStat d a) s = .next t ∧ TakesTrap s t 0x02 (wordArg (.ctxStat d a))) ∧
    (s.cur.taskOpen = true → ∃ t, exec (.ctxGrant a b) s = .next t ∧ TakesTrap s t 0x02 (wordArg (.ctxGrant a b)))) ∧
  (∀ (s : State), speculative s s.cur = false → s.cur.ctxStack = [] →
    ∃ t, exec .ctxExit s = .next t ∧ TakesTrap s t 0x02 (wordArg .ctxExit)) ∧
  (∀ (s : State) (a b : Reg) (c : Nat), speculative s s.cur = false → LogReady s → childNamed s (s.g a) = some c →
    ((s.ctx c).revoked = true ∨ (s.ctx c).revoking = true) →
    (∃ t, exec (.ctxEnter a) s = .next t ∧ TakesTrap s t 0x12 (BitVec.ofNat 64 c)) ∧
    (s.cur.taskOpen = true → ∃ t, exec (.ctxGrant a b) s = .next t ∧ TakesTrap s t 0x12 (BitVec.ofNat 64 c)))

/-- R117, R158, R295, R357: an act moves among contexts, and where the group traps. -/
def Obligations.ContextMoves : Prop := Claims.EnterAndExit ∧ Claims.ContextTraps

/-- R352, R354: CTX.NEW of a descriptor that passes every check gives an identifier that was free to a new child with the values of the
descriptor, one deeper, whose queues its parent no longer holds, with no event bit, barrier, tensor identifier or task. -/
def Sys2Proof.Claims.ChildMade : Prop :=
  ∀ (s s1 s2 : State) (d a : Reg) (p0 p1 : Nat) (w : Nat → Dbl), s.cur.taskOpen = true → speculative s s.cur = false → LogReady s →
    s.curCtx.revoking = false → promptAccess s (s.g a) 64 .read = (.ok p0, s1) →
    promptAccess (s1.recordPrompter s.me false (s.g a) 64) (s.g a + 64) 64 .read = (.ok p1, s2) → w = descAt s.mem p0 p1 →
    descClean w = true → s.curCtx.depth < 8 → s.ctxs.length < 4096 → subsetOk s s.cur.ctx w = true →
    (∃ i < 4096, ∀ p ∈ s.ctxs, p.1 ≠ i) → (∃ p ∈ s.ctxs, p.1 = s.cur.ctx) →
    ∃ t id, exec (.ctxNew d a) s = .next t ∧ Wrote s t d (BitVec.ofNat 64 id) ∧ t.mem = s.mem ∧
      t.cur.regs.acpc = s.cur.regs.advance.acpc ∧ id < 4096 ∧ (∀ p ∈ s.ctxs, p.1 ≠ id) ∧
      (t.ctx id).parent = some s.cur.ctx ∧ (t.ctx id).depth = s.curCtx.depth + 1 ∧ (t.ctx id).part = s.curCtx.part ∧
      (t.ctx id).ptroot = 4096 * ((w 0).toNat / 4096) ∧
      (t.ctx id).pflim = (if (w 0).toNat % 1024 = 0 then s.curCtx.pflim else (w 0).toNat % 1024) ∧
      (t.ctx id).mbase = (w 1).toNat % 2 ^ 48 ∧ (t.ctx id).mbound = (w 2).toNat % 2 ^ 49 ∧
      (t.ctx id).fb = s.curCtx.fb + (w 1).toNat % 2 ^ 48 ∧
      (t.ctx id).fl = min ((w 2).toNat % 2 ^ 49) (s.curCtx.fl - (w 1).toNat % 2 ^ 48) ∧
      (t.ctx id).qmask = w 3 ∧ (t.ctx id).tmask = w 7 ++ w 6 ++ w 5 ++ w 4 ∧ (t.ctx id).tvec = w 8 &&& ~~~(3 : Dbl) ∧
      (t.ctx id).rring = w 9 &&& ~~~(31 : Dbl) ∧ (t.ctx id).evb = (w 9).toNat % 16 ∧
      (t.ctx id).portion = (w 11).toNat % 2 ^ 32 ∧ (t.ctx id).floor = (w 11).toNat / 2 ^ 32 ∧
      (∀ k : Fin 8, (t.ctx id).rects[k] = rectWord w 12 k.val) ∧
      (t.ctx id).revoked = false ∧ (t.ctx id).revoking = false ∧ (t.ctx id).ev = 0 ∧ (t.ctx id).tasks = [] ∧
      (∀ b, ((t.ctx id).bar b).count = 0) ∧ (∀ n, ((t.ctx id).tid n).v = false) ∧
      t.curCtx.qmask = s.curCtx.qmask &&& ~~~(w 3)

/-- R354: CTX.NEW at depth 8 gives status -1, in a full package -2, and for resources that are no subset -3, in this order, and makes
nothing. -/
def Sys2Proof.Claims.NewRefused : Prop :=
  ∀ (s s1 s2 : State) (d a : Reg) (p0 p1 : Nat), s.cur.taskOpen = true → speculative s s.cur = false → LogReady s →
    s.curCtx.revoking = false → promptAccess s (s.g a) 64 .read = (.ok p0, s1) →
    promptAccess (s1.recordPrompter s.me false (s.g a) 64) (s.g a + 64) 64 .read = (.ok p1, s2) →
    descClean (descAt s.mem p0 p1) = true →
    (8 ≤ s.curCtx.depth ∨ 4096 ≤ s.ctxs.length ∨ subsetOk s s.cur.ctx (descAt s.mem p0 p1) = false) →
    ∃ t, exec (.ctxNew d a) s = .next t ∧ t.mem = s.mem ∧ t.cur.regs.acpc = s.cur.regs.advance.acpc ∧
      Wrote s t d (BitVec.ofInt 64 (if 8 ≤ s.curCtx.depth then -1 else if 4096 ≤ s.ctxs.length then -2 else -3)) ∧
      ∀ c, (t.ctx c).parent = (s.ctx c).parent ∧ (t.ctx c).qmask = (s.ctx c).qmask

/-- R352, R354: CTX.NEW makes a child, or gives the status that says why not. -/
def Obligations.NewContext : Prop := Claims.ChildMade ∧ Claims.NewRefused

/-- R158, R354, R357, R358: the CTX group completes: CTX.NEW at depth 8 with -1; CTX.ENTER in a child that is not being revoked; CTX.EXIT in
the context that was left; CTX.STAT of a child with the last fault code; CTX.REVOKE of a child that has been revoked already. -/
def Sys2Proof.Claims.ContextGroupCompletes : Prop :=
  (∀ (s s1 s2 : State) (d a : Reg) (p0 p1 : Nat), s.cur.taskOpen = true → speculative s s.cur = false → LogReady s →
    s.curCtx.revoking = false → promptAccess s (s.g a) 64 .read = (.ok p0, s1) →
    promptAccess (s1.recordPrompter s.me false (s.g a) 64) (s.g a + 64) 64 .read = (.ok p1, s2) →
    descClean (descAt s.mem p0 p1) = true → 8 ≤ s.curCtx.depth →
    ∃ t, exec (.ctxNew d a) s = .next t ∧ Wrote s t d (BitVec.ofInt 64 (-1))) ∧
  (∀ (s : State) (a : Reg) (c : Nat), speculative s s.cur = false → LogReady s → childNamed s (s.g a) = some c →
    (s.ctx c).revoking = false → (s.ctx c).revoked = false → s.wingsReady c (actDie s.me) = true →
    ∃ t, exec (.ctxEnter a) s = .next t ∧ StepsPast s t ∧ t.cur.ctx = c) ∧
  (∀ (s : State) (c : Nat) (rest : List Nat), speculative s s.cur = false → LogReady s → s.cur.ctxStack = c :: rest →
    ∃ t, exec .ctxExit s = .next t ∧ StepsPast s t ∧ t.cur.ctx = c) ∧
  (∀ (s : State) (d a : Reg) (c : Nat), speculative s s.cur = false → LogReady s → childNamed s (s.g a) = some c →
    ∃ t v, exec (.ctxStat d a) s = .next t ∧ Wrote s t d v ∧ v.toNat / 256 % 256 = (s.ctx c).lastFault.toNat) ∧
  (∀ (s : State) (a : Reg) (c : Nat), speculative s s.cur = false → LogReady s → childNamed s (s.g a) = some c →
    (s.ctx c).revoked = true → ∃ t, exec (.ctxRevoke a) s = .next t ∧ StepsPast s t ∧ (t.ctx c).revoked = true)

/-- R158, R354, R355, R357, R358: CTX.GRANT of a descriptor that passes every check, and asks for no resume, adds its queues, portion and
floor to the child, and takes the queues from the grantor; the rest of the group completes. -/
def Obligations.GrantResult : Prop :=
  Claims.ContextGroupCompletes ∧
  ∀ (s s1 : State) (a b : Reg) (c pa : Nat), s.cur.taskOpen = true → speculative s s.cur = false → LogReady s →
    childNamed s (s.g a) = some c → (s.ctx c).revoking = false → (s.ctx c).revoked = false → c ≠ s.cur.ctx →
    promptAccess s (s.g b) 64 .read = (.ok pa, s1) → grantClean (dblsAt s.mem pa) = true →
    grantFault s c (fun k => if k < 8 then dblsAt s.mem pa k else 0) = none → (dblsAt s.mem pa 3).getLsbD 0 = false →
    ∃ t, exec (.ctxGrant a b) s = .next t ∧ StepsPast s t ∧ t.mem = s.mem ∧
      (t.ctx c).qmask = (s.ctx c).qmask ||| dblsAt s.mem pa 0 ∧
      (t.ctx c).portion = (s.ctx c).portion + (dblsAt s.mem pa 1).toNat % 2 ^ 32 ∧
      (t.ctx c).floor = (s.ctx c).floor + (dblsAt s.mem pa 1).toNat / 2 ^ 32 ∧
      t.curCtx.qmask = s.curCtx.qmask &&& ~~~dblsAt s.mem pa 0

/-- R158, R357, R358: CTX.STAT gives the state, the last fault code and the outstanding page requests of a child, and frees the identifier
of a revoked one. CTX.REVOKE of a subtree that no act is in, and no launch, makes the child revoked at once, or does so once the acts of a
revoke in progress have left; until then it holds. Of a child that has been revoked it does nothing. -/
def Obligations.ChildStates : Prop :=
  (∀ (s : State) (d a : Reg) (c : Nat), speculative s s.cur = false → LogReady s → childNamed s (s.g a) = some c →
    ∃ t st, exec (.ctxStat d a) s = .next t ∧ t.mem = s.mem ∧ t.cur.regs.acpc = s.cur.regs.advance.acpc ∧
      Wrote s t d (BitVec.ofNat 64 (st + 2 ^ 8 * (s.ctx c).lastFault.toNat +
        2 ^ 16 * min (s.eng.pages.filter (·.ctx == c)).length 65535)) ∧
      st = (if (s.ctx c).revoked = true then 4 else if trappedIn s c = true then 3
        else if ∃ p ∈ s.acts, p.2.life ≠ .free ∧ p.2.ctx = c then 2 else 1) ∧
      ((s.ctx c).revoked = true → ∀ p ∈ t.ctxs, p.1 ≠ c) ∧ ((s.ctx c).revoked = false → t.ctxs = s.ctxs)) ∧
  (∀ (s : State) (a : Reg) (c : Nat), speculative s s.cur = false → LogReady s → childNamed s (s.g a) = some c →
    ((s.ctx c).revoked = false → s.subtreeQuiet c = true → (∀ p ∈ s.acts, p.2.seqw = none) →
      ((s.ctx c).revoking = true ∨ ∀ l ∈ s.sch.launches, s.inSubtree c l.ctx = false) →
      ∃ t, exec (.ctxRevoke a) s = .next t ∧ StepsPast s t ∧ (t.ctx c).revoked = true ∧ (t.ctx c).parent = some s.cur.ctx ∧
        (t.ctx c).qmask = 0) ∧
    ((s.ctx c).revoked = false → (s.ctx c).revoking = true → s.subtreeQuiet c = false → Holds s (.ctxRevoke a)) ∧
    ((s.ctx c).revoked = true → ∃ t, exec (.ctxRevoke a) s = .next t ∧ StepsPast s t ∧ t.ctxs = s.ctxs ∧ t.mem = s.mem))

namespace Sys2Proof.Claims
open Sys2Proof Machine

/-! ## Commands of queues -/

/-- R94, R141, R202, R350: entry `e`, with `rest` behind it, stands at the head of a queue that runs and that has a server; no
command of the queue has begun, and `e` has been read, may begin with opcode `opc` and passes every check. -/
def Heads (s : State) (q : QueueId) (opc : Nat) (e : QEntry) (rest : List QEntry) : Prop :=
  (s.queue q).state ≠ 2 ∧ (s.serverOf q).isSome = true ∧ (s.queue q).entries = e :: rest ∧ (s.queue q).active = none ∧
  cmdOpc e.cmd = opc ∧ e.unread = false ∧ e.joins.any s.outstanding = false ∧ s.engineTurn q e = true ∧ s.headOk q e = true

/-- R204: the queue after the command at its head has completed: the command is gone, and the sequence number one higher. -/
def Completed (s t : State) (q : QueueId) (rest : List QEntry) : Prop :=
  (t.queue q).entries = rest ∧ (t.queue q).active = none ∧ (t.queue q).seq = (s.queue q).seq + 1 ∧
  (t.queue q).state = if rest = [] then 0 else 1

/-- R214 to R218, R220: the opcode of a stream command. -/
def streamOpc : Instr → Option (QueueId × Nat)
  | .rdLin q => some (q, 0x01)
  | .rdGath q => some (q, 0x02)
  | .wrLin q => some (q, 0x03)
  | .wrScat q => some (q, 0x04)
  | .wrLog q => some (q, 0x06)
  | .scale q => some (q, 0x38)
  | _ => none

/-- R225, R226: the opcode of a copy command. -/
def copyOpc : Instr → Option (QueueId × Nat)
  | .cp q => some (q, 0x10)
  | .cp2d q => some (q, 0x11)
  | .fill q => some (q, 0x12)
  | _ => none

/-- R229, R230: the opcode of a collective that moves data. -/
def gatherOpc : Instr → Option (QueueId × Nat)
  | .colRed q => some (q, 0x20)
  | .colGath q => some (q, 0x21)
  | _ => none

/-- The bytes at some places after a value has been stored there, least significant first, every other place as before. -/
def PlacesHold (s t : State) (ps : List Place) (v : Nat) : Prop :=
  (∀ (i : Nat) (p : Place), ps[i]? = some p → (t.readPlace p).toNat = v / 256 ^ i % 256) ∧ ∀ p, p ∉ ps → t.readPlace p = s.readPlace p

/-- R225, R226: the value that a copy writes as its element `k`. -/
def copyValue (opc : Nat) (e : QEntry) (a : Active) (k : Nat) : W32 :=
  if opc = 0x12 then (cmdOps e.cmd).extractLsb' 0 32 else (((a.saved.headD [])[k]?).map (·.v)).getD 0

end Sys2Proof.Claims

open Sys2Proof Machine Claims

/-- R204, R214 to R218, R220: a stream command at the head of a queue of an address generator begins at position 0, and with CNT
= 0 completes at once. -/
def Obligations.StreamsBegin : Prop :=
  ∀ (s : State) (i : Instr) (q : QueueId) (opc : Nat) (e : QEntry) (rest : List QEntry) (k : Nat × TileId),
    streamOpc i = some (q, opc) → Heads s q opc e rest → s.agenAct q = some k →
    ∃ t, exec i s = .next t ∧
      (cmdCnt e.cmd ≠ 0 → t.mem = s.mem ∧ t.fab = s.fab ∧ t.acts = s.acts ∧ (t.queue q).entries = e :: rest ∧
        (∃ a, (t.queue q).active = some a ∧ a.began = s.cycle ∧ a.pos = 0 ∧ a.idx = 0 ∧ a.finished = false ∧ a.saved = []) ∧
        ∀ p, p ≠ q → t.queue p = s.queue p) ∧
      (cmdCnt e.cmd = 0 → (s.queue q).dropped = false → e.again = false → Completed s t q rest)

/-- R204, R221, R232, R233: QFENCE, BCAST and an aligned LINK complete when they reach the head of their queue: BCAST leaves its binding, and
LINK its address as the head of the chain. -/
def Sys2Proof.Claims.QueueControls : Prop :=
  ∀ (s : State) (q : QueueId) (e : QEntry) (rest : List QEntry), (s.queue q).dropped = false → e.again = false →
    (Heads s q 0x33 e rest → ∃ t, exec (.qfence q) s = .next t ∧ Completed s t q rest) ∧
    (Heads s q 0x18 e rest → ∃ t, exec (.bcast q) s = .next t ∧ Completed s t q rest ∧
      (t.queue q).bcast = if (cmdOps e.cmd).toNat % 16 = 0 then none
        else some (BitVec.ofNat 4 ((cmdOps e.cmd).toNat % 16), if cmdCnt e.cmd = 0 then none else some (cmdCnt e.cmd))) ∧
    (Heads s q 0x32 e rest → (cmdOps e.cmd).toNat % 16 = 0 → e.node = none →
      ∃ t, exec (.link q) s = .next t ∧ Completed s t q rest ∧ (t.queue q).head = cmdOps e.cmd)

/-- R232: SIG stores the low 32 bits of CNT, and SEQ the sequence number that its completion gives the queue, at the address in
OPS, and complete. A port queue has no record, so that memory shows nothing else. -/
def Sys2Proof.Claims.QueueStores : Prop :=
  ∀ (s s1 : State) (q : QueueId) (e : QEntry) (rest : List QEntry) (va : Dbl) (ps : List Place), StorageOk s →
    (s.queue q).dropped = false → e.again = false → ps.Nodup → va = cmdOps e.cmd →
    (Heads s q 0x30 e rest → va.toNat % 4 = 0 →
      locateAll (commandAgent s q e) false true 4 [va] [] ((s.beginPort q e).activate q) = .all [.at va ps] s1 →
      ∃ t, exec (.sig q) s = .next t ∧ Completed s t q rest ∧
        ∀ die port, q = .port die port → PlacesHold s t ps (cmdCnt e.cmd)) ∧
    (Heads s q 0x31 e rest → va.toNat % 8 = 0 →
      locateAll (commandAgent s q e) false true 8 [va] [] ((s.beginPort q e).activate q) = .all [.at va ps] s1 →
      ∃ t, exec (.seqCommand q) s = .next t ∧ Completed s t q rest ∧
        ∀ die port, q = .port die port → PlacesHold s t ps ((s.queue q).seq + 1))

/-- R204, R232, R233: the commands that complete when they reach the head of their queue. -/
def Obligations.QueueCommandsComplete : Prop := Claims.QueueControls ∧ Claims.QueueStores

/-- R227: a copy command that the scoreboard lets begin enters its ranges there. -/
def Sys2Proof.Claims.CopiesBegin : Prop :=
  ∀ (s : State) (i : Instr) (q : QueueId) (opc : Nat) (e : QEntry) (rest : List QEntry),
    copyOpc i = some (q, opc) → Heads s q opc e rest → cmdCnt e.cmd ≠ 0 →
    (opc = 0x11 → gridFault (copySource s e) (copyDest s e) e.cmd = none) →
    copyFree s q (copyRanges s q e) = true → copyYields s q (copyRanges s q e) = false →
    ∃ t, exec i s = .next t ∧ t.eng.score = s.eng.score ++ copyRanges s q e ∧ (t.queue q).active.isSome = true ∧
      (t.queue q).entries = e :: rest

/-- R225, R226: a copy command that has read all its elements, and written all but the last, writes the last at its place and has
then made every access. -/
def Sys2Proof.Claims.CopiesWrite : Prop :=
  ∀ (s s1 : State) (i : Instr) (q : QueueId) (opc : Nat) (e : QEntry) (a : Active) (va : Dbl) (ps : List Place) (u : TensorEntry),
    StorageOk s → copyOpc i = some (q, opc) → s.headCmd q opc = some e → (s.queue q).active = some a →
    u = (if opc = 0x12 then copySource s e else copyDest s e) →
    (copyAddrs s e).1.2 = none → (copyAddrs s e).2.2 = none → a.pos = (copyAddrs s e).1.1.length →
    a.idx + 1 = (copyAddrs s e).2.1.length → (copyAddrs s e).2.1[a.idx]? = some va → ps.Nodup →
    locateAll (engineAgent s q e) u.space true u.bytesOf [va] [] s = .all [.at va ps] s1 →
    ∃ t b, exec i s = .next t ∧ PlacesHold s t ps (copyValue opc e a a.idx).toNat ∧ (t.queue q).active = some b ∧ b.finished = true ∧
      b.idx = a.idx + 1 ∧ (t.queue q).entries = (s.queue q).entries

/-- R225 to R227: how copies begin and end. -/
def Obligations.CopiesRun : Prop := Claims.CopiesBegin ∧ Claims.CopiesWrite

/-- R195, R200, R219: a fill that has begun, whose act's context holds the slots, stores the code of its last element at the
element's place in the slot, clears the scale fields where SC = 0, and has then made every access. -/
def Obligations.OperandFill : Prop :=
  ∀ (s s1 : State) (q : QueueId) (x : Stream) (m : TileId) (va : Dbl) (ps : List Place) (j : Nat) (v k off n : Nat),
    s.stream q [0x05] = some x → x.g.q = q → x.a.finished = false → opmTarget (s.act x.id).region x.cmd = some m →
    (∀ i ∈ (opmSlots x).1, ∃ o, ((s.tile m).opSlot i).owner = some o ∧ (s.act o).ctx = x.g.e.ctx) →
    x.a.pos + 1 = cmdCnt x.cmd → cmdSC x.cmd = false → j = cmdStart x.cmd + x.a.pos →
    (s.eng.portNow.1 = s.cycle → s.eng.portNow.2 ≤ x.t.tile) → s.ticks x.t = true → s.ticks m = true →
    locateElems x.g x.ten false [j] s = .all [.at va ps] s1 → v = s.readPlaces ps →
    opmPlace ((opmSlots x).1.headD 0) (opmSlots x).2 x.a.pos = (k, off, n) → k < 16 → k ∈ (opmSlots x).1 →
    ∃ t a, exec (.rdOpm q) s = .next t ∧ t.mem = s.mem ∧ (t.queue q).active = some a ∧ a.finished = true ∧
      ((t.tile m).opSlot k).bytes = ((s.tile m).opSlot k).bytes.writeN off n (opmCode x v).1 ∧
      ((t.tile m).opSlot k).sb = [0, 0, 0, 0] ∧ ((t.tile m).opSlot k).owner = ((s.tile m).opSlot k).owner

/-- R228: a collective command that reaches the head of its queue first of its group takes its part, and waits for the others. -/
def Sys2Proof.Claims.CollectivesJoin : Prop :=
  ∀ (s : State) (i : Instr) (q : QueueId) (opc : Nat) (e : QEntry) (rest : List QEntry),
    (gatherOpc i = some (q, opc) ∨ (i = .colBar q ∧ opc = 0x22)) → Heads s q opc e rest →
    (cmdCnt e.cmd ≠ 0 ∨ opc = 0x22) → s.mates (partOf s q e) = [] → (∀ p ∈ s.eng.coll, p.q ≠ q) →
    ∃ t p, exec i s = .next t ∧ p ∈ t.eng.coll ∧ p.mate (partOf s q e) = true ∧ p.q = q ∧ p.rank = colRank e.cmd ∧
      p.n = colN e.cmd ∧ p.done = false ∧ (t.queue q).active.isSome = true ∧ (t.queue q).entries = e :: rest

/-- R231: COL.BAR completes once every rank has joined; R229, R230: a member that has everything to take writes its last element,
and has then made every access. -/
def Sys2Proof.Claims.CollectivesEnd : Prop :=
  (∀ (s : State) (q : QueueId) (e : QEntry) (a : Active) (p : CollPart), s.headCmd q 0x22 = some e → (s.queue q).active = some a →
    a.finished = false → s.partAt q = some p → p.opc = 0x22 → p.ready = true → matched s p = true →
    ∃ t b, exec (.colBar q) s = .next t ∧ t.mem = s.mem ∧ (t.queue q).active = some b ∧ b.finished = true) ∧
  (∀ (s s1 : State) (i : Instr) (q : QueueId) (opc : Nat) (e : QEntry) (a : Active) (p : CollPart) (va : Dbl) (ps : List Place)
      (xs : List (Nat × Nat)) (ad : List Dbl × Option Nat) (j v : Nat),
    StorageOk s → gatherOpc i = some (q, opc) → s.headCmd q opc = some e → (s.queue q).active = some a → a.finished = false →
    s.partAt q = some p → p.opc = opc → p.ready = true → matched s p = true → (∀ m ∈ s.mates p, m.ready = true) →
    (opc = 0x20 → p.root = true → p.rank = 0) → xs = received (s.mates p) p →
    ad = addrsOf (copySource s e) (xs.map (·.1)) → ad.2 = none → a.idx + 1 = ad.1.length → ad.1[a.idx]? = some va →
    xs[a.idx]? = some (j, v) → ps.Nodup →
    locateAll (engineAgent s q e) (copySource s e).space true (copySource s e).bytesOf [va] [] s = .all [.at va ps] s1 →
    ∃ t b, exec i s = .next t ∧ PlacesHold s t ps (v % 2 ^ 32) ∧ (t.queue q).active = some b ∧ b.finished = true)

/-- R228 to R231: how collectives begin and end. -/
def Obligations.CollectivesRun : Prop := Claims.CollectivesJoin ∧ Claims.CollectivesEnd

/-- R204, R205: the command at the head of a queue that has made every access completes; ABORT tells of the last collective. -/
def Sys2Proof.Claims.CommandCompletes : Prop :=
  ∀ (s : State) (q : QueueId) (a : Active) (e : QEntry) (rest : List QEntry), (s.queue q).active = some a → a.finished = true →
    (s.queue q).state ≠ 2 → (s.queue q).entries = e :: rest → (s.queue q).dropped = false → e.again = false →
    ∃ t, exec (.commandCompletion q) s = .next t ∧ Completed s t q rest ∧ (t.queue q).abort = (if collective e.cmd = true then a.aborted else (s.queue q).abort) ∧
      ∀ p, p ≠ q → t.queue p = s.queue p

/-- R202, R208: the oldest entry of an issue buffer leaves it once its task may: a command goes to the tail of its queue, and an
appended one to the slot at TAIL of its chain, whose TAIL moves on by 16, and to the tail of the queue, where its server has still to
read it. -/
def Sys2Proof.Claims.CommandLeaves : Prop :=
  ∀ (s : State) (id : Nat) (e : IssueEntry) (rest : List IssueEntry), (s.act id).issue = e :: rest → e.held = false →
    (e.late = true → s.draining id = false) → mayLeave s e = true → (s.act id).life ≠ .switchedOut → (s.act id).life ≠ .free → (s.act id).replayed true = none →
    (s.act id).log.length < 64 →
    (∀ q, e.kind = .issue → queueNamed s (s.act id).region.die e.ctx (cmdPq e.cmd) = some q → s.bound q = true →
      ∃ t x, exec (.commandLeavesIssueBuffer id) s = .next t ∧ (t.act id).issue = rest ∧
        (t.queue q).entries = (s.queue q).entries ++ [x] ∧ x.cmd = e.cmd ∧ x.act = id ∧ x.ctx = e.ctx ∧ x.stamp = e.stamp ∧
        x.addr = e.addr ∧ x.chained = false ∧ t.mem = s.mem) ∧
    (∀ d pa slot s1 s2 n, e.kind = .append d → accessAct s id e.ctx d .write = (.ok pa, s1) →
      n = s.mem.readN (pa + 16) 1 % 64 → (s.ctx e.ctx).qmask.getLsbD n = true → s.bound (.ctx (s.rootOf e.ctx) n) = true →
      ((s.queue (.ctx (s.rootOf e.ctx) n)).chain = none ∨ (s.queue (.ctx (s.rootOf e.ctx) n)).chain = some d) →
      s.mem.readN pa 8 ≠ s.mem.readN (pa + 8) 8 → s.mem.readN pa 8 % 16 = 0 →
      accessAct s1 id e.ctx (BitVec.ofNat 64 (s.mem.readN pa 8)) .write = (.ok slot, s2) →
      ∃ t, exec (.commandLeavesIssueBuffer id) s = .next t ∧ (t.act id).issue = rest ∧
        t.mem = (s.mem.writeN pa 8 ((s.mem.readN pa 8 + 16) % 2 ^ 64)).writeN slot 16 e.cmd.toNat ∧
        (t.queue (.ctx (s.rootOf e.ctx) n)).chain = some d ∧
        ∃ x, (t.queue (.ctx (s.rootOf e.ctx) n)).entries = (s.queue (.ctx (s.rootOf e.ctx) n)).entries ++ [x] ∧ x.cmd = e.cmd ∧
          x.act = id ∧ x.ctx = e.ctx ∧ x.stamp = e.stamp ∧ x.addr.toNat = s.mem.readN pa 8 ∧ x.chained = true ∧ x.unread = true)

/-- R202, R209: the entry at the head of a chain is read, and stands where its append placed it; the head moves on by 16 unless the entry
is a LINK. -/
def Sys2Proof.Claims.ChainRead : Prop :=
  ∀ (s s1 : State) (q : QueueId) (sv : Server) (e : QEntry) (pa : Nat) (cmd : Quad), s.serverOf q = some sv →
    chainSlot s q = some e → (s.queue q).state ≠ 2 → (∀ y ∈ (s.queue q).entries, y.chained = true → y.unread = false → cmdOpc y.cmd ≠ 0x32) →
    s.nodeUnread q = true →
    accessAs s (.queue q) sv.place.1 sv.place.2 e.ctx e.act (s.queue q).head .read = (.ok pa, s1) →
    cmd = BitVec.ofNat 128 (s.mem.readN pa 16) →
    ∃ t x, exec (.chainEntryRead q) s = .next t ∧ (t.queue q).entries = putRead (s.queue q).entries x ∧ x.cmd = cmd ∧
      x.no = e.no ∧ x.unread = false ∧ x.act = e.act ∧ x.stamp = e.stamp ∧ t.mem = s.mem ∧
      (t.queue q).head = if cmdOpc cmd = 0x32 then (s.queue q).head else (s.queue q).head + 16

/-- R202, R204, R208, R209: how commands reach their queue, and leave it. -/
def Obligations.CommandsMove : Prop := Claims.CommandCompletes ∧ Claims.CommandLeaves ∧ Claims.ChainRead

/-- R56, R62, R71: no token at a head of the tile fails its parity, no stroke and no refill is still to come in this cycle, and the
tokens of the region reach past the elements before it to the `n` for which the element asks. -/
def Sys2Proof.Claims.MayFire (s : State) (id : Nat) (tl : TileId) (e : Element) (n : Nat) : Prop :=
  s.badInput tl = none ∧ s.early id = false ∧
  (n = 0 ∨ n + s.wantsBefore (s.act id).regionRoot tl e ≤ (s.act (s.act id).regionRoot).tokens)

/-- R271, R272: no port of a higher number has performed elements in this cycle. -/
def Sys2Proof.Claims.PortsTurn (s : State) (x : Stream) : Prop := s.eng.portNow.1 = s.cycle → s.eng.portNow.2 ≤ x.t.tile

/-- R62, R211, R214: RD.LIN places its next data token where its outputs and the power allow, and stands after the elements
placed. -/
def Sys2Proof.Claims.ReadToken : Prop :=
  ∀ (s s1 : State) (q : QueueId) (x : Stream) (n : Nat) (js : List Nat) (ps : List Spot), s.stream q [0x01, 0x02, 0x38] = some x →
    cmdOpc x.cmd = 0x01 → x.a.finished = false → x.a.pos < cmdCnt x.cmd → scalesBefore x ≤ x.a.scaled →
    s.canSend x (s.act x.id).region.cur = true → 0 < (s.act (s.act x.id).regionRoot).tokens → s.ticks x.t = true →
    n = Nat.min x.ten.capacity (cmdCnt x.cmd - x.a.pos) → js = (List.range n).map (fun i => cmdStart x.cmd + x.a.pos + i) →
    MayFire s x.id x.t .agen (s.streamWants x) → PortsTurn s x → locateElems x.g x.ten false js s = .all ps s1 →
    ∃ t a, exec (.readStreamToken q) s = .next t ∧ t.mem = s.mem ∧ (t.queue q).active = some a ∧ a.pos = x.a.pos + n ∧
      a.scaled = 0 ∧ (a.finished = true ↔ cmdCnt x.cmd ≤ x.a.pos + n ∧ (cmdCL x.cmd = true → x.a.ending = true))

/-- R62, R212, R216, R218: WR.LIN or WR.LOG takes the data token at its input, and stands after the elements taken; R212: a stream
close ends it. -/
def Sys2Proof.Claims.WriteToken : Prop :=
  (∀ (s : State) (q : QueueId) (x : Stream) (b : BufTok) (tok : Token), s.stream q [0x03, 0x04, 0x06] = some x → cmdOpc x.cmd ≠ 0x04 →
    x.g.q = q → x.a.saved = [] → x.a.finished = false → x.a.ending = false → x.a.pos < cmdCnt x.cmd →
    s.head x.t (cmdD x.cmd) = some b → isData b = true → s.inputTok x (cmdD x.cmd) = some tok →
    1 ≤ (s.act (s.act x.id).regionRoot).tokens → s.ticks x.t = true → MayFire s x.id x.t .agen (s.streamWants x) → PortsTurn s x →
    ∃ t a, exec (.writeStreamToken q) s = .next t ∧ (t.queue q).active = some a ∧
      a.pos = x.a.pos + (linearElems x tok).1.length) ∧
  (∀ (s : State) (q : QueueId) (x : Stream) (b : BufTok), s.stream q [0x03, 0x04, 0x06] = some x → x.g.q = q → x.a.finished = false →
    s.head x.t (cmdD x.cmd) = some b → isClose b = true → s.ticks x.t = true →
    ((s.tile x.t).portNext[cmdD x.cmd]?).getD 0 ≤ s.cycle →
    ∃ t a, exec (.streamCloseAtWrite q) s = .next t ∧ (t.queue q).active = some a ∧ a.ending = true ∧ a.pos = x.a.pos ∧
      (x.a.saved = [] → a.finished = true ∧ t.mem = s.mem))

/-- R211, R212: the tokens of streams. -/
def Obligations.StreamTokens : Prop := Claims.ReadToken ∧ Claims.WriteToken

namespace Sys2Proof.Claims
open Sys2Proof Machine

/-! ## The fabric: firings, tokens, cuts, strokes -/

/-- R168, R170, R189: the tokens that a firing of a pipeline leaves on its output `k`, scale tokens first, from the sixth cycle. -/
def firedTokens (s : State) (x : PipeFiring) (l : List Lanes) (r : PipeOut) (k : Nat) : List PendingOut :=
  let scales := scliTokens x.e x.c.stages l k
  let lv := (r.keep[k]?).getD 0
  (List.range scales.length).map (fun j =>
    { due := s.cycle + 6 + j, out := k, scene := x.scene, tok := scaleTok x.scene ((scales[j]?).getD 0), paid := true }) ++
  if placesOn x.e x.c.stages l k = true ∧ lv ≠ 0 then
    [{ due := s.cycle + 6 + scales.length, out := k, scene := x.scene,
       tok := dataTok x.scene lv ((r.o[k]?).getD Lanes.zero), paid := true }] else []

/-- The data token that a node's firing reads at an input, and its lanes. -/
def lanesAt (s : State) (t : TileId) (i sc : Nat) : Lanes :=
  match s.dataHead t i sc with
  | some k => k.lanes
  | none => Lanes.zero

/-- The acts of two states have the same registers. -/
def SameRegs (s t : State) : Prop := ∀ id, (t.act id).regs = (s.act id).regs

/-- R271, R376: the region of an act stands at its cut `c`, with SCRFLT and SCRST as they were, and `code` has been retried. -/
def AtCut (s t : State) (id : Nat) (c : Cut) (code : Byte) : Prop :=
  (t.act id).regs = { c.regs with
    scrflt := (s.act id).regs.scrflt, scrMore := (s.act id).regs.scrMore, scrWr := (s.act id).regs.scrWr,
    scrV := (s.act id).regs.scrV } ∧ (t.act id).issue = c.issue ∧ (t.act id).ctx = c.ctx ∧ (t.act id).region.cur = c.region.cur ∧
  (t.act id).region.gates = c.region.gates ∧ code ∈ (t.act id).retried ∧ (t.act id).cutRun = none

/-- R376, R378: the region of an act can return to its cut `c` and has not yet done so for `code`; no curtain is in flight, and the context
that the act had at the cut stands. -/
def MayRoll (s : State) (id : Nat) (c : Cut) (code : Byte) : Prop :=
  (∀ t ∈ s.ownTiles id, (s.tile t).shadowBad = false) ∧ s.fab.badShadows.contains id = false ∧ (s.act id).cut = some c ∧
  code ∉ (s.act id).retried ∧ (s.act id).curtain = none ∧ s.ctxLive c.ctx = true

/-- R414: a stroke of a partition on a die is due there: its generator runs, and the stroke has reached the die. -/
def StrokeDue (s : State) (part die : Nat) (p : Partition) (t0 : Nat) : Prop :=
  s.part? part = some p ∧ p.spec.slotLen ≠ 0 ∧ die < 8 ∧ assoc? part s.ctl.bell.slots = some t0

end Sys2Proof.Claims

open Sys2Proof Machine Claims

/-- R60, R61, R164, R168 to R170, R186: a pipeline that may fire leaves its tokens behind its earlier ones, keeps its registers and
counts its firing. -/
def Sys2Proof.Claims.PipelineFires : Prop :=
  ∀ (s : State) (tl : TileId) (id : Nat) (x : PipeFiring) (l : List Lanes) (r : PipeOut), s.liveOwner tl = some id →
    s.pipeFiring id tl = some x → s.pipeFree tl x = true → s.pipeRoom id tl x = true → s.powered id tl x.eats = true →
    MayFire s id tl .pipe (s.pipeWants id tl).toNat → s.pledged id tl x.scene (x.c.inputsOf .pipe) = false →
    l = (s.sceneSt tl x.scene).l → r = pipeFire x.e x.c.stages l →
    ∃ t, exec (.pipelineFiring tl) s = .next t ∧ t.mem = s.mem ∧ SameRegs s t ∧
      (t.tile tl).outq = (s.tile tl).outq ++ (x.c.outputsOf .pipe).flatMap (firedTokens s x l r) ∧
      (t.tile tl).st.scenes = (s.tile tl).st.scenes.set x.scene (x.after (s.sceneSt tl x.scene) r) ∧
      (t.tile tl).lastPipe = some s.cycle

/-- R186: the closes that a GEN source owes join its outgoing tokens, one for each destination, and none is owed any more. -/
def Sys2Proof.Claims.GenCloses : Prop :=
  ∀ (s : State) (tl : TileId) (id : Nat), s.liveOwner tl = some id →
    ∃ t, exec (.genStreamClose tl) s = .next t ∧ t.mem = s.mem ∧ SameRegs s t ∧
      (∀ p ∈ (s.tile tl).outq, p ∈ (t.tile tl).outq) ∧
      ∀ sc < 4, (t.sceneSt tl sc).closes = [] ∧
        ∀ o ∈ (s.sceneSt tl sc).closes, ∃ p ∈ (t.tile tl).outq, p.out = o ∧ p.scene = sc ∧ p.tok = closeTok sc

/-- R60, R168, R186: the firings of pipelines. -/
def Obligations.PipelinesFire : Prop := Claims.PipelineFires ∧ Claims.GenCloses

/-- R46, R191, R195, R196, R199, R322: MM (mode 0) and MM.SP (mode 1): a node that may fire applies its A token, with the mask that
its metadata gives, to the slots that its word names. -/
def Sys2Proof.Claims.ProductsApplied : Prop :=
  ∀ (s : State) (i : Instr) (tl : TileId) (mode id sc : Nat) (c : TileCfg) (w : Dbl),
    ((i = .mm tl ∧ mode = 0) ∨ (i = .mmSp tl ∧ mode = 1)) → s.liveOwner tl = some id →
    s.firingScene (s.act id) tl .node = some sc → s.cfg tl sc = some c → w = c.nodeWord → nodeMode w = mode →
    s.nodeFree tl w = true → (s.tile tl).st.node.oneShot = none → s.filling tl (nodeSlots w) = false →
    s.powered id tl (c.inputsOf .node) = true → s.underCap id = true → nodePoison s id tl w = none →
    MayFire s id tl .node (s.nodeWants id tl).toNat → s.pledged id tl sc (c.inputsOf .node) = false →
    ∃ t, exec i s = .next t ∧ t.mem = s.mem ∧ SameRegs s t ∧ (t.tile tl).nodeNext = s.cycle + 1 ∧ (t.tile tl).lastNode = some s.cycle ∧
      (t.tile tl).st.node =
        { (s.tile tl).st.node.apply w
            (nodeTerms w (lanesAt s tl (nodeAP w) sc) (if mode = 1 then some (lanesAt s tl (nodeMP w) sc) else none)
              (s.tile tl).st.node.latch)
            (s.readSlot id tl (nodeBS w)) (s.readSlot id tl (nodeBS w + 1)) with
          latch := (s.tile tl).st.node.latch.data, busy := s.cycle + (if nodeAF w then 6 else 5),
          reading := (s.tile tl).st.node.reading.filter (fun r => decide (s.cycle < r.2)) ++
            (nodeSlots w).map fun k => (k, s.cycle + (if nodeAF w then 6 else 5)) }

/-- R46, R48, R49, R197, R198: ACC.CLR, DRAIN and SAT: a one-shot firing that may happen clears the accumulators, places the drained
columns, or places the flags and, where its word says so, clears them. -/
def Sys2Proof.Claims.OneShots : Prop :=
  ∀ (s : State) (tl : TileId) (id sc : Nat) (c : TileCfg) (trigger : Bool) (n : NodeSt), s.liveOwner tl = some id →
    slotFree s tl .node = true → s.ticks tl = true → (s.tile tl).st.node.busy ≤ s.cycle →
    s.powered id tl (if trigger then [nodeAP c.nodeWord] else []) = true → n = (s.tile tl).st.node →
    MayFire s id tl .node (s.nodeWants id tl).toNat →
    s.pledged id tl sc (if trigger then [nodeAP c.nodeWord] else []) = false →
    (s.oneShotScene id tl 2 = some (sc, c, trigger) →
      ∃ t, exec (.accClr tl) s = .next t ∧ t.mem = s.mem ∧ SameRegs s t ∧
        (t.tile tl).st.node = { n with acc := List.replicate 32 0, nan := 0, latch := (if trigger then Latch.zero else n.latch), oneShot := none }) ∧
    (s.oneShotScene id tl 3 = some (sc, c, trigger) → s.roomOn id tl (nodeOP c.nodeWord) sc 2 = true →
      ∃ t, exec (.drain tl) s = .next t ∧ t.mem = s.mem ∧ SameRegs s t ∧
        (t.tile tl).outq = (s.tile tl).outq ++
          [{ due := s.cycle + 4, out := nodeOP c.nodeWord, scene := sc, tok := n.drainTok c.nodeWord sc 0, paid := true },
           { due := s.cycle + 5, out := nodeOP c.nodeWord, scene := sc, tok := n.drainTok c.nodeWord sc 1, paid := true }] ∧
        (t.tile tl).st.node.acc = n.acc ∧ (t.tile tl).st.node.nan = n.nan) ∧
    (s.oneShotScene id tl 4 = some (sc, c, trigger) → s.roomOn id tl (nodeOP c.nodeWord) sc 1 = true →
      ∃ t, exec (.sat tl) s = .next t ∧ t.mem = s.mem ∧ SameRegs s t ∧
        (t.tile tl).outq = (s.tile tl).outq ++
          [{ due := s.cycle + 4, out := nodeOP c.nodeWord, scene := sc, tok := n.satTok sc, paid := true }] ∧
        (t.tile tl).st.node.acc = n.acc ∧ (t.tile tl).st.node.nan = n.nan ∧
        (t.tile tl).st.node.lsat = (n.lsat && !c.nodeWord.getLsbD 39) ∧
        (t.tile tl).st.node.asat = (n.asat && !c.nodeWord.getLsbD 39) ∧
        (t.tile tl).st.node.aund = (n.aund && !c.nodeWord.getLsbD 39))

/-- R46, R191 to R200: the firings of matrix nodes. -/
def Obligations.NodesFire : Prop := Claims.ProductsApplied ∧ Claims.OneShots

/-- R59, R62: the element at a zero-slot input that waits for its token only, under the scenes `scs`, requests it once the power tokens
of its region reach to it: on every such circuit of those scenes that ends there, to be used once the request has travelled. With no power token
left it makes no request. -/
def Sys2Proof.Claims.ZeroSlotRequests : Prop :=
  ∀ (s : State) (tl : TileId) (inp id : Nat) (e : Element) (scs : List Nat), s.liveOwner tl = some id →
    scs = s.askScenes id tl e inp → scs ≠ [] → (∀ e', e' ≠ e → s.askScenes id tl e' inp = []) → s.early id = false →
    (1 + s.wantsBefore (s.act id).regionRoot tl e ≤ (s.act (s.act id).regionRoot).tokens → (e = .node → s.underCap id = true) →
      ∃ t, exec (.zeroSlotRequest tl inp) s = .next t ∧ t.mem = s.mem ∧ SameRegs s t ∧ (∀ r ∈ s.fab.requests, r ∈ t.fab.requests) ∧
        ∀ p ∈ s.acts, ∀ b ∈ s.linksInto p.1 tl inp, s.linkSlots p.1 b.1 = 0 → (p.1 ≠ id ∨ b.1.scene ∈ scs) →
          (b.1, s.cycle + b.2) ∈ t.fab.requests) ∧
    ((s.act (s.act id).regionRoot).tokens = 0 →
      ∃ t, exec (.zeroSlotRequest tl inp) s = .next t ∧ t.mem = s.mem ∧ SameRegs s t ∧ t.fab = s.fab)

/-- R64: an element all of whose inputs show one marker passes it to every output with a circuit in its region, once these have
room; a mark copies the state of a pipeline, and a scene-end curtain resets its counters. -/
def Sys2Proof.Claims.MarkersPass : Prop :=
  ∀ (s : State) (tl : TileId) (e : Element) (id sc : Nat) (c : TileCfg) (k : Token), s.liveOwner tl = some id →
    passScene s tl e = some sc → s.cfg tl sc = some c → k.mark = true → s.passInputs tl c e ≠ [] →
    (∀ i ∈ s.passInputs tl c e, s.gateHead tl i = some k) → slotFree s tl e = true → s.ticks tl = true →
    (∀ o ∈ c.outputsOf e, ∀ b ∈ s.ownBranches id tl o sc, s.canPlace id b.1 = true) → s.badInput tl = none →
    s.pledged id tl sc (s.passInputs tl c e) = false → (e = .node → k.kind = 3 → (s.tile tl).st.node.oneShot = none) →
    ∃ t, exec (.markerPassage tl e) s = .next t ∧ t.mem = s.mem ∧ SameRegs s t ∧ (∀ p ∈ (s.tile tl).outq, p ∈ (t.tile tl).outq) ∧
      (e ≠ .agen → ∀ o ∈ c.outputsOf e, s.ownBranches id tl o sc ≠ [] →
        ∃ p ∈ (t.tile tl).outq, p.out = o ∧ p.scene = sc ∧ p.tok = k ∧ p.paid = true) ∧
      (e = .pipe → k.kind = 2 → (t.tile tl).shadowNew.map (·.scenes) = some (s.tile tl).st.scenes) ∧
      (e = .pipe → k.kind = 3 → ∀ n < 4, (t.sceneSt tl n).f = 0 ∧ (t.sceneSt tl n).turn = 0)

/-- R65, R188, R194: a scale token at the head of an input is forwarded on every destination of a pipeline that is not scale-aware
there; otherwise the pipeline, or the node at its A input, latches it. -/
def Sys2Proof.Claims.ScaleTokens : Prop :=
  ∀ (s : State) (tl : TileId) (inp id sc : Nat) (b : BufTok) (c : TileCfg), s.liveOwner tl = some id →
    s.scaleHead tl inp = some (b, sc, c) →
    (c.has .pipe = true → inp ∈ c.inputsOf .pipe → scaleInput c.stages inp = false →
      (∀ o ∈ c.outputsOf .pipe, s.ready id tl o sc 1 = true) →
      ∃ t, exec (.scaleTokenForward tl inp) s = .next t ∧ t.mem = s.mem ∧ SameRegs s t ∧
        (∀ p ∈ (s.tile tl).outq, p ∈ (t.tile tl).outq) ∧
        ∀ o ∈ c.outputsOf .pipe, ∃ p ∈ (t.tile tl).outq, p.out = o ∧ p.scene = sc ∧ p.tok = b.tok) ∧
    (c.has .pipe = true → inp ∈ c.inputsOf .pipe → scaleInput c.stages inp = true →
      ∃ t, exec (.scaleTokenLatch tl inp) s = .next t ∧ t.mem = s.mem ∧ SameRegs s t ∧ (t.tile tl).outq = (s.tile tl).outq ∧
        (t.tile tl).st.scenes = (s.tile tl).st.scenes.set sc ((s.sceneSt tl sc).latch inp b.tok.arg)) ∧
    (c.has .pipe = false → c.has .node = true → nodeAP c.nodeWord = inp →
      ∃ t, exec (.scaleTokenLatch tl inp) s = .next t ∧ t.mem = s.mem ∧ SameRegs s t ∧ (t.tile tl).outq = (s.tile tl).outq ∧
        (t.tile tl).st.node = { (s.tile tl).st.node with latch := (s.tile tl).st.node.latch.take b.tok.arg })

/-- R241: the first token that has become valid at a region entry, and has not entered, takes the scene in force. -/
def Sys2Proof.Claims.TokensEnter : Prop :=
  ∀ (s : State) (tl : TileId) (inp id : Nat) (l : List BufTok) (b : BufTok) (l' : List BufTok), s.ownerOf tl = some id →
    (s.act id).curtain = none → (s.act id).region.quiet = false → (s.tile tl).inbuf[inp]? = some (l ++ b :: l') → (∀ x ∈ l, x.entered = true) → b.entered = false →
    b.valid ≤ s.cycle →
    ∃ t, exec (.regionEntryToken tl inp) s = .next t ∧ t.mem = s.mem ∧ t.acts = s.acts ∧
      (t.tile tl).inbuf[inp]? = some
        (l ++ { b with entered := true, tok := { b.tok with sc := BitVec.ofNat 2 (s.act id).region.cur } } :: l') ∧
      ∀ j, j ≠ inp → (t.tile tl).inbuf[j]? = (s.tile tl).inbuf[j]?

/-- R367, R386, R430: a token that has reached a hedge, a listed tile or the end of its route is dropped there, and its credit
returns in the next cycle; a hedge counts it. -/
def Sys2Proof.Claims.TokensDropped : Prop :=
  ∀ (s : State) (die : Nat) (d : DropTok),
    (s.firstDrop (fun l => match l.dest with
      | .hedge u _ _ => u.die == die
      | _ => false) = some d →
      ∃ t, exec (.hedge die) s = .next t ∧ t.mem = s.mem ∧ t.acts = s.acts ∧ t.fab.drops = s.fab.drops.erase d ∧
        t.fab.returns = s.fab.returns ++ [(s.cycle + 1, d.link)] ∧ tally d.hedgeAt t.fab.hedgeCount = tally d.hedgeAt s.fab.hedgeCount + 1) ∧
    (s.firstDrop (fun l => match l.dest with
      | .listed u => u.die == die
      | _ => false) = some d →
      ∃ t, exec (.fusedTileDrop die) s = .next t ∧ t.mem = s.mem ∧ t.acts = s.acts ∧ t.fab.drops = s.fab.drops.erase d ∧
        t.fab.returns = s.fab.returns ++ [(s.cycle + 1, d.link)]) ∧
    (s.firstDrop (fun l => l.dest == .off && l.src.die == die) = some d →
      ∃ t, exec (.misroutedTokenDrop die) s = .next t ∧ t.mem = s.mem ∧ t.acts = s.acts ∧ t.fab.drops = s.fab.drops.erase d ∧
        t.fab.returns = s.fab.returns ++ [(s.cycle + 1, d.link)])

/-- R59, R64, R65, R188, R241, R367, R386, R430: what happens to tokens that no firing consumes. -/
def Obligations.TokensMove : Prop :=
  Claims.ZeroSlotRequests ∧ Claims.MarkersPass ∧ Claims.ScaleTokens ∧ Claims.TokensEnter ∧ Claims.TokensDropped

/-- R137, R262, R373: a mark that is due takes the next marker number, records the act and starts its way to the sinks; once they
have all consumed it, the cut is the last complete one. -/
def Sys2Proof.Claims.MarksAndCuts : Prop :=
  (∀ (s : State) (id : Nat), 0 < (s.act id).markDue → (s.act id).cutRun = none → (s.act id).present = true → s.early id = false →
    ∃ t r c, exec (.markInsertion id) s = .next t ∧ t.mem = s.mem ∧ (t.act id).region.marker = (s.act id).region.marker + 1 ∧
      (t.act id).markDue + 1 = (s.act id).markDue ∧ (t.act id).cutRun = some r ∧ r.num = (s.act id).region.marker ∧
      r.sinks = s.sinks id (s.act id).region.cur ∧ (t.act id).cutNew = some c ∧ c.num = r.num ∧ c.regs = (s.act id).regs ∧
      c.issue = (s.act id).issue ∧ (t.act id).cut = (s.act id).cut) ∧
  (∀ (s : State) (id : Nat) (r : MarkerRun), (s.act id).cutRun = some r → r.sinks = [] →
    ∃ t, exec (.cutComplete id) s = .next t ∧ (t.act id).cut = (s.act id).cutNew ∧ (t.act id).cutRun = none ∧
      (t.act id).retried = [] ∧ (t.act id).log = (s.act id).log.filter (fun e => !e.pre) ∧ (t.act id).regs = (s.act id).regs)

/-- R376, R377, R379: at the first fault 0x20 or 0x50 since its cut, and when its watchdog fires, a region returns to the cut. -/
def Sys2Proof.Claims.RegionsRollBack : Prop :=
  (∀ (s : State) (id : Nat) (c : Cut) (code : Byte) (arg : Dbl), (s.act id).present = true → (code = 0x20 ∨ code = 0x50) →
    MayRoll s id c code → ∃ t, exec (.rollback id code arg) s = .next t ∧ AtCut s t id c code) ∧
  (∀ (s : State) (id : Nat) (c : Cut), watchdogFires s id = true → MayRoll s id c 0x20 →
    ∃ t, exec (.stallWatchdog id) s = .next t ∧ AtCut s t id c 0x20)

/-- R285, R357, R370: a region of which a page request is overdue closes its gates and starts its curtain; a switch-out whose
curtain every sink has consumed saves the act in a green room, an act that is revoked or cancelled ends, and one that has left a revoked
subtree stays, its region quiet. -/
def Sys2Proof.Claims.CurtainsEnd : Prop :=
  (∀ (s : State) (id : Nat), (s.act id).present = true → drainDue s id = true → (s.act id).curtain = none →
    ∃ t m, exec (.pageFaultDrain id) s = .next t ∧ (t.act id).region.gates = 0 ∧ (t.act id).curtain = some m ∧ m.reason = 3 ∧
      m.gates = (s.act id).region.gates ∧ (t.act id).regs = (s.act id).regs) ∧
  (∀ (s : State) (id : Nat) (m : MarkerRun), (s.act id).curtain = some m → m.sinks = [] → (m.reason = 0 ∨ m.reason = 3) →
    ∃ t, exec (.curtainComplete id) s = .next t ∧ (t.act id).life = .switchedOut ∧ (t.act id).curtain = none ∧
      ∃ g ∈ t.sch.green, g.act.regs = (s.act id).regs ∧ g.act.region.gates = m.gates ∧ g.reason = m.reason) ∧
  (∀ (s : State) (id : Nat) (m : MarkerRun), (s.act id).curtain = some m → m.sinks = [] →
    (m.reason = 1 ∨ (m.reason = 2 ∧ s.ctxLive (s.act id).ctx = false)) →
    ∃ t, exec (.curtainComplete id) s = .next t ∧ (t.act id).life = .free) ∧
  (∀ (s : State) (id : Nat) (m : MarkerRun), (s.act id).curtain = some m → m.sinks = [] → m.reason = 2 → s.ctxLive (s.act id).ctx = true →
    s.sch.revokes = [] →
    ∃ t, exec (.curtainComplete id) s = .next t ∧ (t.act id).curtain = none ∧ (t.act id).life = (s.act id).life ∧
      (t.act id).region = { (s.act id).region with quiet := true } ∧ (t.act id).regs = (s.act id).regs)

/-- R137, R285, R370 to R379: marks, cuts, rollbacks and the curtains of switch-outs. -/
def Obligations.CutsAndCurtains : Prop := Claims.MarksAndCuts ∧ Claims.RegionsRollBack ∧ Claims.CurtainsEnd

/-- R134, R261, R262, R414, R415: a stroke that is due at a die is acted on there, by the standby where the active generator's is late;
in a package of one act, a slot stroke puts an armed scene that is loaded in force. -/
def Sys2Proof.Claims.StrokesAct : Prop :=
  (∀ (s : State) (part die n t0 : Nat) (p : Partition) (gen : Nat), StrokeDue s part die p t0 → n = s.ctl.bell.count part die →
    gen = s.ctl.bell.follows die → s.cdFailed gen = false → strokeTime p.spec t0 n + skewOf gen die ≤ s.cycle →
    (n % strokesOf p.spec = 0 → ∃ t, exec (.slotStroke part die) s = .next t ∧ t.ctl.bell.count part die = n + 1) ∧
    (n % strokesOf p.spec ≠ 0 →
      ∃ t, exec (.symbolStroke part die (n % strokesOf p.spec)) s = .next t ∧ t.ctl.bell.count part die = n + 1)) ∧
  (∀ (s : State) (part die n t0 : Nat) (p : Partition) (gen : Nat), StrokeDue s part die p t0 → n = s.ctl.bell.count part die →
    gen = (s.ctl.bell.follows die + 1) % 2 → s.cdFailed gen = false → strokeTime p.spec t0 n + skewOf gen die ≤ s.cycle →
    s.ctl.bell.standby.contains die = false →
    strokeTime p.spec t0 n + skewOf (s.ctl.bell.follows die) die + 16 ≤ s.cycle →
    ∃ t, exec (.standbyStrokeTakeover part die) s = .next t ∧ t.ctl.bell.count part die = n + 1 ∧
      t.ctl.bell.standby.contains die = true) ∧
  (∀ (s : State) (part die n t0 id k : Nat) (p : Partition) (a : Act), StrokeDue s part die p t0 → n = s.ctl.bell.count part die →
    s.cdFailed (s.ctl.bell.follows die) = false → strokeTime p.spec t0 n + skewOf (s.ctl.bell.follows die) die ≤ s.cycle →
    n % strokesOf p.spec = 0 → s.acts = [(id, a)] → a.present = true → a.region.die = die → (s.ctx a.ctx).part = part →
    k = a.region.tgt → k < 4 → k ≠ a.region.cur → mayStrike a = true → a.region.armed < s.cycle →
    s.ticks a.region.corner = true → s.parityTile id k = none →
    ∃ t, exec (.slotStroke part die) s = .next t ∧ (t.act id).region.cur = k ∧ (t.act id).region.arm = false ∧
      ((t.act id).slot k).st = .inForce ∧ (t.act id).region.marker = a.region.marker + 1 ∧ (t.act id).regs = a.regs)

/-- R274, R316, R318: a power interval ends after 2300 cycles, when the operating points are those that the power core chooses; the
wake of a bank ends once its time has passed. -/
def Sys2Proof.Claims.IntervalsEnd : Prop :=
  (∀ (s : State) (budgets points levels : List (Nat × Nat)), (s.interval + 1) * 2300 ≤ s.cycle →
    ∃ t, exec (.powerIntervalBoundary budgets points levels) s = .next t ∧ t.interval = s.interval + 1 ∧ t.cycle = s.cycle ∧
      t.fab.points = (s.setPoints points).fab.points) ∧
  (∀ (s : State) (die bank : Nat), (s.bank (die * 512 + bank)).wake ≠ 0 → (s.bank (die * 512 + bank)).wake ≤ s.cycle →
    ∃ t, exec (.bankWake die bank) s = .next t ∧ t.mem = s.mem ∧ t.acts = s.acts ∧ (t.bank (die * 512 + bank)).wake = 0 ∧
      (t.bank (die * 512 + bank)).bytes = (s.bank (die * 512 + bank)).bytes ∧
      ∀ k, k ≠ die * 512 + bank → t.bank k = s.bank k)

/-- R134, R261, R274, R316, R318, R414, R415: strokes, intervals and banks. -/
def Obligations.StrokesAndIntervals : Prop := Claims.StrokesAct ∧ Claims.IntervalsEnd

namespace Sys2Proof.Claims
open Sys2Proof Machine

/-! ## Tasks, pages and the scheduler -/

/-- The bytes of `n` from virtual address `va` of a context lie from `pa` upward, for a store by a control-die agent, and no page
table that says so lies among them; links lead there, and no earlier store of that agent waits for one. -/
def Maps (s : State) (ctx : Nat) (va : Dbl) (pa n : Nat) : Prop :=
  (∀ x ∈ s.ctl.late, x.cdie ≠ some s.leader.val) ∧
  ∀ u : State, u.ctxs = s.ctxs → u.sch = s.sch → u.ctl.fences = s.ctl.fences → u.ctl.linksDown = s.ctl.linksDown →
    (∀ g ∈ u.fab.hbmPoison, g ∈ s.fab.hbmPoison) → (∀ g ∈ u.fab.lpPoison, g ∈ s.fab.lpPoison) →
    (∀ b, b < pa ∨ pa + n ≤ b → u.mem.read b = s.mem.read b) →
    ∀ i < n, translateCtl u ctx (va + BitVec.ofNat 64 i) .write = .ok (pa + i) ∧ u.served (pa + i) = true

/-- R333: the record at HEAD of a context's ring, of one KIND, and no quiesce holds it back. -/
def RingShows (s : State) (ctx kind : Nat) (va : Dbl) (r : List Dbl) : Prop :=
  s.ctl.sec.quiesced = false ∧ bits (dblAt r 0) 0 8 = kind ∧ ringRecord ctx s = .got (some (va, r)) s

/-- R402: node `n` of graph `g` is a function that has been dispatched and has not returned, with its FUNC and ARG. -/
def Calls (s : State) (g n func : Nat) (x : Graph) (arg : Dbl) : Prop :=
  ∃ y p, s.graph? g = some x ∧ x.nodes[n]? = some y ∧ y.kind = 3 ∧ y.dispatched = true ∧ y.completed = false ∧
    y.result = none ∧ readPair s x.ctx y.payload = .got p s ∧ p.1.toNat = func ∧ p.2 = arg

/-- R402: a node has returned with code 0. -/
def ReturnsOk (t : State) (g n : Nat) : Prop := ∃ y, t.node? g n = some y ∧ y.result = some (0, 0)

end Sys2Proof.Claims

open Sys2Proof Machine Claims

/-- R298, R301: the oldest open task whose pages are present takes its first step: its staged bytes are in memory, and its
atomics sent to the engines of their homes, where their pages lie now. -/
def Sys2Proof.Claims.StepOneTaken : Prop :=
  ∀ (s : State) (c : Nat) (k : Task), MemOk s →
    (s.ctx c).tasks.find? (fun t => !t.step1 && oldest s c t) = some k → linesPresent s c k = true → linesFree s c k = true →
    ∃ t, exec (.taskBecomesOldest c) s = .next t ∧ t.acts = s.acts ∧ (k.deferred = [] → t.eng.atoms = s.eng.atoms) ∧
      (∀ r pa, k.deferred = [r] → k.lines = [] → (deferredXlate s c r).1 = .ok pa →
        t.eng.atoms = s.eng.atoms ++ [{ r with pa := pa, die := (homeOf pa).1, blk := (homeOf pa).2 }]) ∧
      (∀ j ∈ (t.ctx c).tasks, j.stamp = k.stamp → j.step1 = true ∧ j.lines = [] ∧ j.deferred = []) ∧
      (k.lines = [] → t.mem = s.mem) ∧
      ∀ l pa, k.lines = [l] → (lineXlate s c l).1 = .ok pa → (l.bytes.map (·.1)).Nodup →
        (∀ b ∈ l.bytes, t.mem.read (pa + b.1) = b.2) ∧
        ∀ a, (∀ b ∈ l.bytes, a ≠ pa + b.1) → t.mem.read a = s.mem.read a

/-- R291: no deposit into the range log of a domain waits for room. -/
def Sys2Proof.Claims.NoDeposits (s : State) (c : Nat) : Prop := ∀ j ∈ (s.ctx c).tasks, ∀ r ∈ j.accs, r.due = false

/-- R148, R298, R299: a task that may commit leaves its domain; a later task that has read what it wrote returns to its checkpoint,
with nothing staged. -/
def Sys2Proof.Claims.TaskCommits : Prop :=
  ∀ (s : State) (c : Nat) (k : Task), (s.ctx c).tasks.find? (mayCommit s c) = some k →
    ((∀ u ∈ (s.ctx c).tasks, k.stamp < u.stamp → conflicts s k u = false) →
      ∃ t, exec (.taskCommit c) s = .next t ∧ (t.ctx c).committed = k.stamp ∧
        (NoDeposits s c → (t.ctx c).tasks = (s.ctx c).tasks.filter fun j => j.no != k.no)) ∧
    (∀ u a ck, (s.ctx c).tasks.filter (fun u => decide (k.stamp < u.stamp) && conflicts s k u) = [u] → laterTasks s u = [] →
      u.checks = [(a, ck)] → u.no ≠ k.no →
      ∃ t, exec (.taskCommit c) s = .next t ∧ (t.ctx c).committed = k.stamp ∧ (t.act a).regs.acpc = ck.acpc ∧
        (t.act a).regs.g = ck.g ∧ (t.act a).taskOpen = true ∧ (t.act a).ctx = c ∧
        (NoDeposits s c → ∀ j ∈ (t.ctx c).tasks, j.stamp = u.stamp → j.lines = [] ∧ j.ranges = [] ∧ j.deferred = []))

/-- R282, R286, R360, R361: a walk that finds its page fills the slice of the page, where its set has room; a shootdown takes exactly the pages of its range from
every slice, once no atomic of it waits at an engine; an answer frees its request, and a refusal reaches all who wait for the page. -/
def Sys2Proof.Claims.PagesServed : Prop :=
  (∀ (s : State) (die c rel v : Nat) (va : Dbl) (w x : Bool), canonical va = true → v = va.toNat % 2 ^ 57 →
    (∀ e ∈ s.eng.slices, ¬(e.die = die ∧ e.slice = sliceOf v c ∧ e.ctx = c ∧ e.page = v / 4096)) →
    walk s (s.ctx c) v = .leaf rel w x →
    (s.eng.slices.filter fun e => e.die == die && e.slice == sliceOf v c && e.set == Config.sliceSet c (v / 4096) % 256).length < 8 →
    ∃ t, exec (.pageTableWalk die c va) s = .next t ∧ t.mem = s.mem ∧ t.acts = s.acts ∧
      t.eng.slices = s.eng.slices ++
        [{ die := die, slice := sliceOf v c, ctx := c, page := v / 4096, rel := rel - v % 4096, w := w, x := x }]) ∧
  (∀ (s : State) (c len : Nat) (va : Dbl), s.rangeBusy c (va.toNat % 2 ^ 57) len = false →
    ∃ t, exec (.shootdownComplete c va len) s = .next t ∧ t.mem = s.mem ∧ t.acts = s.acts ∧
      ∀ e, e ∈ t.eng.slices ↔ e ∈ s.eng.slices ∧
        ¬(e.ctx = c ∧ e.page * 4096 < va.toNat % 2 ^ 57 + len ∧ va.toNat % 2 ^ 57 < e.page * 4096 + 4096)) ∧
  (∀ (s : State) (c len : Nat) (va : Dbl), s.rangeBusy c (va.toNat % 2 ^ 57) len = true → Holds s (.shootdownComplete c va len)) ∧
  (∀ (s : State) (tag : Nat) (refused : Bool) (p : PageReq), s.eng.pages.find? (fun p => p.tag == tag) = some p →
    (∀ g ∈ s.sch.green, g.reason ≠ 3) → drainDue s p.act = false → (s.cdie s.leader).pageRings.2 = 0 →
    ∃ t, exec (.pageAnswer tag refused) s = .next t ∧ p ∉ t.eng.pages ∧ t.acts = s.acts ∧
      (refused = true → ∀ w ∈ p.waiters, (w, p.page) ∈ t.eng.refused))

/-- R148, R282, R286, R298 to R301, R360, R361: tasks and pages. -/
def Obligations.TasksAndPages : Prop := Claims.StepOneTaken ∧ Claims.TaskCommits ∧ Claims.PagesServed

/-- R333, R338, R399: a doorbell sets SUBM in both scheduler cores of each control die; a clean launch record becomes a waiting launch. -/
def Sys2Proof.Claims.RecordsTaken : Prop :=
  (∀ (s : State) (c : Nat) (d : Fin 2), ((s.ctx c).sring = 0 ∨ s.ctl.sec.quiesced = true ∨
      ∃ va r, ringRecord c (s.signal 0) = .got (some (va, r)) (s.signal 0) ∧ 1 ≤ bits (dblAt r 0) 0 8 ∧ bits (dblAt r 0) 0 8 ≤ 4) →
    ∃ t, exec (.submissionDoorbell c) s = .next t ∧ t.mem = s.mem ∧ t.acts = s.acts ∧ t.sch = s.sch ∧
      (t.mcore d 0).pending.getLsbD 0 = true ∧ (t.mcore d 1).pending.getLsbD 0 = true) ∧
  (∀ (s : State) (c : Nat) (va : Dbl) (r : List Dbl), RingShows s c 1 va r → s.ringWaits c = false → launchClean r = true →
    ∃ t l, exec (.launchRecord c) s = .next t ∧ l ∈ t.sch.launches ∧ l.ctx = c ∧ l.state = .waiting ∧ l.image = dblAt r 1 ∧
      l.reloc = dblAt r 2 ∧ l.qbind = dblAt r 3 ∧ l.bars = dblAt r 4 ∧ l.stampb = (dblAt r 5).toNat ∧ l.done = dblAt r 6 ∧
      t.acts = s.acts) ∧
  (∀ (s : State) (c n : Nat) (va : Dbl) (r : List Dbl) (ns : List (GNode × Bool)), RingShows s c 2 va r → graphClean r = true →
    n = bits (dblAt r 0) 8 13 → n ≤ 4096 → s.poolSize + n ≤ 16384 → readNodes c n n (dblAt r 1) [] s = .got ns s →
    dblAt r 3 = 0 → dblAt r 4 = 0 → graphError (s.ctx c) ns = none →
    ∃ t x, exec (.graphRecord c) s = .next t ∧ x ∈ t.sch.graphs ∧ x.ctx = c ∧ x.nodes = ns.map (·.1) ∧ x.done = dblAt r 2 ∧
      x.count = ns.length ∧ t.acts = s.acts ∧ ∀ y ∈ x.nodes, y.stamp ∈ (t.ctx c).reserved) ∧
  (∀ (s : State) (c : Nat) (va : Dbl) (r : List Dbl) (l : Launch), RingShows s c 3 va r → bits (dblAt r 0) 8 56 = 0 →
    (∀ d ∈ r.drop 2, d = 0) →
    s.sch.launches.find? (fun l => l.ctx == c && l.done == dblAt r 1 && !l.state.ended) = some l → s.launch? l.id = some l →
    l.state = .waiting → l.node = none → (∀ p ∈ s.acts, p.2.launch ≠ some l.id) →
    ∃ t l', exec (.cancelRecord c) s = .next t ∧ t.launch? l.id = some l' ∧ l'.state = .cancelled ∧ t.acts = s.acts) ∧
  (∀ (s : State) (c : Nat) (va : Dbl) (r : List Dbl) (q : QueueId), RingShows s c 4 va r → bits (dblAt r 0) 14 50 = 0 →
    (∀ d ∈ r.drop 1, d = 0) → q = .ctx c (bits (dblAt r 0) 8 6) → (s.ctx c).qmask.getLsbD (bits (dblAt r 0) 8 6) = true →
    ((s.queue q).active = none ∨ (s.queue q).state = 2) →
    ∃ t, exec (.queueResetRecord c) s = .next t ∧ (t.queue q).entries = [] ∧ (t.queue q).active = none ∧
      (t.queue q).server = none ∧ (t.queue q).seq = 0 ∧ (t.queue q).state = 0 ∧ (t.queue q).chain = none)

/-- R295, R296, R325, R337, R338: a launch that needs no queue and no barrier, whose turn it is and whose places may be taken, is stamped and placed, and one whose
image is refused fails;
once its last tile has acknowledged, its act stands and runs from its entry with its data address in g1. -/
def Sys2Proof.Claims.LaunchesRun : Prop :=
  (∀ (s u : State) (id : Nat) (l : Launch) (n : Needs) (ps : List Placement), s.launch? id = some l → l.state = .waiting →
    s.ctl.sec.quiesced = false → s.deviceRuns l.ctx = true → launchFieldFault l = none → readNeeds s l = .got n s →
    firstOfShape s l ps = true → rectTurn s l ps = true → needsFree s l n ps = true → (activateFloor s l.ctx).isSome = true →
    (s.presentLaunch l n ps = (none, u) → ps.length = regionsOf (n.mem u) n.pa →
      (∀ v p, ps[v]? = some p → placeOk u l n ps v p = true ∧ routesFit u l.ctx n ps v p = true) → apart ps = true →
      bankExcess u l ps = none → banksOk u l ps = true → n.binds = [] → n.bars = [] → l.node = none → l.stampb = 0 →
      ∃ t l', exec (.launchAdmission id ps) s = .next t ∧ t.launch? id = some l' ∧ l'.state = .placing ∧ l'.taken = true ∧
        l'.stamp = (s.ctx l.ctx).highest + 1 ∧ (t.ctx l.ctx).highest = (s.ctx l.ctx).highest + 1 ∧ t.acts = s.acts) ∧
    (∀ e, s.presentLaunch l n ps = (some e, u) → l.node = none → l.queues = [] →
      ∃ t l', exec (.launchAdmission id ps) s = .next t ∧ t.launch? id = some l' ∧ l'.state = .failed ∧ t.acts = s.acts)) ∧
  (∀ (s s1 : State) (id v pa k : Nat) (l : Launch) (tl : TileId) (p : Placement) (m : Mem), s.launch? id = some l → l.state = .placing →
    tl ∈ l.awaiting → s.ctl.sec.quiesced = false → tileGiven s l tl = true → placeOf l tl = some (v, p) →
    placePa s l.ctx p = some pa → m = s.imageMem pa →
    offerAll m (mpsOf m (imageBlocks m pa) tl.tile) tl ((imageBlocks m pa).filter fun a => hdTile (m.dbl a) == tl.tile) (s.emptyTile tl) =
      ((0, k), s1) →
    ((l.awaiting.filter (· ≠ tl)) ≠ [] →
      ∃ t l', exec (.tileAcknowledgement id tl) s = .next t ∧ t.launch? id = some l' ∧ l'.state = .placing ∧
        l'.awaiting = l.awaiting.filter (· ≠ tl) ∧ t.acts = s.acts) ∧
    ((l.awaiting.filter (· ≠ tl)) = [] → l.places = [p] →
      ∃ t l', exec (.tileAcknowledgement id tl) s = .next t ∧ t.launch? id = some l' ∧ l'.state = .running ∧
        l'.acts = [placeAct p] ∧ l'.count = 1 ∧
        (t.act (placeAct p)).life = .running ∧ (t.act (placeAct p)).ctx = l.ctx ∧ (t.act (placeAct p)).regs.acpc = p.entry ∧
        (∀ r, (t.act (placeAct p)).regs.readG r = if r = 1 then p.data else 0) ∧
        (t.act (placeAct p)).regs.faultH = false ∧ (t.act (placeAct p)).region.cur = 0 ∧
        ((t.act (placeAct p)).taskOpen = true ↔ l.stampb = 0) ∧ ((t.act (placeAct p)).cut.map (·.num)) = some 0))

/-- R295, R343, R345: a ready node of lowest stamp is dispatched: its launch waits, its chain is its queue's, or its function is begun in
a task of its own; a node that has ended well completes, and its successor counts it. -/
def Sys2Proof.Claims.NodesRun : Prop :=
  (∀ (s : State) (g n : Nat) (x : Graph) (y : GNode), s.graph? g = some x → x.nodes[n]? = some y → nodeReady s x y = true →
    lowestReady s x y = true → s.deviceRuns x.ctx = true → s.ctl.sec.quiesced = false →
    (∀ r, y.kind = 1 → readDbls x.ctx 8 y.payload [] s = .got r s → bits (dblAt r 0) 0 8 = 1 → launchClean r = true →
      ∃ t y' l, exec (.nodeDispatch g n) s = .next t ∧ t.node? g n = some y' ∧ y'.dispatched = true ∧ y'.launch = some l.id ∧
        l ∈ t.sch.launches ∧ l.state = .waiting ∧ l.stamp = y.stamp ∧ l.node = some (g, n) ∧ t.acts = s.acts) ∧
    (∀ p b q, y.kind = 2 → readPair s x.ctx y.payload = .got p s → b = chainBlock p → q = .ctx x.ctx b.queue →
      (s.ctx x.ctx).qmask.getLsbD b.queue = true → s.bound q = true → (s.queue q).chain = none → (s.queue q).node = none →
      (s.queue q).state ≠ 2 → b.n ≠ 0 →
      ∃ t y', exec (.nodeDispatch g n) s = .next t ∧ t.node? g n = some y' ∧ y'.dispatched = true ∧ y'.chainLeft = b.n ∧
        (t.queue q).chain = some b.first ∧ (t.queue q).head = b.first ∧ (t.queue q).node = some (g, n) ∧ t.mem = s.mem) ∧
    (∀ p, y.kind = 3 → readPair s x.ctx y.payload = .got p s → 1 ≤ p.1.toNat → p.1.toNat ≤ 4 →
      ∃ t y' k, exec (.nodeDispatch g n) s = .next t ∧ t.node? g n = some y' ∧ y'.dispatched = true ∧ y'.result = none ∧
        k ∈ (t.ctx x.ctx).tasks ∧ k.stamp = y.stamp ∧ k.step1 = false ∧ t.mem = s.mem)) ∧
  (∀ (s : State) (g n k : Nat) (x : Graph) (y z : GNode) (c : Byte) (a : Dbl), s.graph? g = some x → x.nodes[n]? = some y →
    y.dispatched = true → y.completed = false → nodeOutcome s y = some (1, c, a) → y.succ = [k] → k ≠ n → x.nodes[k]? = some z →
    1 < x.count →
    ∃ t y' z' x', exec (.nodeCompletion g n) s = .next t ∧ t.graph? g = some x' ∧ x'.count + 1 = x.count ∧
      t.node? g n = some y' ∧ y'.completed = true ∧ t.node? g k = some z' ∧ z'.preds = z.preds + 1 ∧ t.acts = s.acts)

/-- R402: PREFAULT returns once every page of its range is present; CRC stores the CRC-32C of its bytes, and NOTE its value, where its
arguments say; QRESET resets its queue. -/
def Sys2Proof.Claims.FunctionsRun : Prop :=
  ∀ (s : State) (g n : Nat) (x : Graph) (arg : Dbl),
    (∀ p s2 first k, Calls s g n 1 x arg → readPair s x.ctx arg = .got p s → first = p.1.toNat / 4096 →
      k = (if p.2 = 0 then 0 else (p.1.toNat + p.2.toNat - 1) / 4096 - first + 1) →
      prefaultPages x.ctx k (BitVec.ofNat 64 (first * 4096)) true s = .got true s2 →
      ∃ t, exec (.prefault g n) s = .next t ∧ ReturnsOk t g n) ∧
    (∀ p bs pa, MemOk s → Calls s g n 2 x arg → readDbls x.ctx 3 arg [] s = .got p s →
      readBytes x.ctx (dblAt p 1).toNat (dblAt p 0) [] s = .got bs s → Maps s x.ctx (dblAt p 2) pa 4 →
      ∃ t, exec (.crc g n) s = .next t ∧ ReturnsOk t g n ∧ Stored s t pa 4 (crc32c bs).toNat) ∧
    (∀ q, Calls s g n 3 x arg → q = bits arg 0 6 → (s.ctx x.ctx).qmask.getLsbD q = true →
      ∃ t, exec (.qreset g n) s = .next t ∧ ReturnsOk t g n ∧ (t.queue (.ctx x.ctx q)).seq = 0 ∧
        (t.queue (.ctx x.ctx q)).chain = none ∧ (t.queue (.ctx x.ctx q)).state = 0) ∧
    (∀ p pa, MemOk s → Calls s g n 4 x arg → readPair s x.ctx arg = .got p s → Maps s x.ctx p.1 pa 8 →
      ∃ t, exec (.note g n) s = .next t ∧ ReturnsOk t g n ∧ Stored s t pa 8 p.2.toNat)

/-- R295, R296, R325, R333 to R348, R402: what the scheduler does with the records of rings and with graphs. -/
def Obligations.SchedulerWorks : Prop := Claims.RecordsTaken ∧ Claims.LaunchesRun ∧ Claims.NodesRun ∧ Claims.FunctionsRun

/-- R350: at the end of a scheduling period each context of the device is given its portion, with what it owes. -/
def Sys2Proof.Claims.PeriodsEnd : Prop :=
  ∀ (s : State) (dev : Nat) (v : VDev), s.sch.vdevs.find? (·.ctx == dev) = some v → v.periodEnd ≤ s.cycle →
    ∃ t v', exec (.schedulingPeriodBoundary dev) s = .next t ∧ t.mem = s.mem ∧ t.acts = s.acts ∧
      t.sch.vdevs.find? (·.ctx == dev) = some v' ∧ v'.periodEnd = v.periodEnd + 2300 * v.period ∧
      ∀ id c, assoc? id s.ctxs = some c → c.id = id → 1 < c.depth → s.inSubtree dev id = true →
        (t.ctx id).balance = (c.portion : Int) + min c.balance 0

/-- R351, R370: a quantum that has ended opens the gap, and the regions of its device are curtained; when the gap is over, the next device
has the partition, for its quantum less what it owes, and the quantum after it begins a quantum and a gap later. -/
def Sys2Proof.Claims.QuantaEnd : Prop :=
  ∀ (s : State) (part : Nat) (p : Partition) (v : VDev), s.part? part = some p → s.ctl.sec.quiesced = false →
    1 < (s.devicesOf part).length → nextDevice (s.devicesOf part) p.running = some v →
    (p.switching = false → p.quantumEnd ≤ s.cycle →
      ∃ t p', exec (.quantumBoundary part) s = .next t ∧ t.part? part = some p' ∧ p'.switching = true ∧ p'.running = p.running ∧
        ∀ id a, s.acts = [(id, a)] → s.unplaced = [] → a.present = true → a.curtain = none → s.rootOf a.ctx = p.running →
          ∃ m, (t.act id).curtain = some m ∧ m.reason = 0 ∧ (t.act id).region.gates = 0) ∧
    (p.switching = true → p.nextStart ≤ s.cycle →
      ∃ t p', exec (.quantumBoundary part) s = .next t ∧ t.part? part = some p' ∧ p'.switching = false ∧ p'.running = v.ctx ∧
        p'.quantumEnd = p.nextStart + (quantumCycles p.spec v - v.debt) ∧
        p'.nextStart = p.nextStart + quantumCycles p.spec v + gapCycles p.spec)

/-- R153, R363: the oldest record held for a ring with room is placed there, and a context's event bit set. -/
def Sys2Proof.Claims.HeldRecordsPlaced : Prop :=
  (∀ (s s1 : State) (c : Nat) (bs : List Byte) (rest : List (List Byte)), (s.ctx c).held = bs :: rest →
    ringPutCtx s c (s.ctx c).rring 5 bs = some s1 →
    ∃ t, exec (.reflectionRecord c) s = .next t ∧ t.mem = s1.mem ∧ t.acts = s.acts ∧ (t.ctx c).held = rest ∧
      ((s.ctx c).evb < 16 → (t.ctx c).ev.getLsbD (s.ctx c).evb = true)) ∧
  (∀ (s s1 : State) (c : Nat) (p : Partition) (bs : List Byte) (rest : List (List Byte)), (s.ctx c).held = [] →
    s.part? (s.ctx c).part = some p → p.held = bs :: rest → ringPutPhys s p.spec.ring 5 bs = some s1 →
    ∃ t p', exec (.reflectionRecord c) s = .next t ∧ t.mem = s1.mem ∧ t.acts = s.acts ∧
      t.part? (s.ctx c).part = some p' ∧ p'.held = rest)

/-- R153, R350, R351, R363, R370: periods, quanta and held records. -/
def Obligations.PeriodsAndQuanta : Prop := Claims.PeriodsEnd ∧ Claims.QuantaEnd ∧ Claims.HeldRecordsPlaced

namespace Sys2Proof.Claims
open Sys2Proof Machine

/-! ## Management cores and dispatches -/

/-- R395: every register of a core reads as before but rd, which reads `v`; x0 reads as zero. -/
def XWrote (c d : Core) (r : Reg) (v : Dbl) : Prop :=
  ∀ k, d.readX k = if k = 0 then 0 else if k = r then v else c.readX k

/-- The core whose instruction is executed has written `v` to rd and stands past its word; of its other registers only the signals
pending and its dispatches may differ, and no act, context, tile or launch does. -/
def CoreWrote (s t : State) (r : Reg) (v : Dbl) : Prop :=
  t.cd = s.cd ∧ t.ci = s.ci ∧ t.acts = s.acts ∧ t.ctxs = s.ctxs ∧ t.sch = s.sch ∧ t.fab.tiles = s.fab.tiles ∧
  XWrote s.core t.core r v ∧
  t.core = { s.core with x := t.core.x, pc := s.core.pc + 4, pending := t.core.pending, dispatches := t.core.dispatches }

/-- R394, R396: the core continues in machine mode at the base of its trap vector, with the cause, the value and its own pc saved;
nothing else differs but in it. -/
def CoreTraps (s t : State) (cause : Nat) (v : Dbl) : Prop :=
  t = { s with ctl := t.ctl } ∧
  t.core = { s.core with mepc := s.core.pc, mcause := BitVec.ofNat 64 cause, mtval := v, machineMode := true,
                         prior := s.core.machineMode, waiting := none, pc := s.core.mtvec &&& ~~~(3 : Dbl) } ∧
  ∀ d k, (d ≠ s.cd ∨ k ≠ s.ci) → t.mcore d k = s.mcore d k

/-- R394: the instructions of a management core that trap outside machine mode. -/
def isXalholtInstr : Instr → Bool
  | .rfetch _ _ | .bfx _ _ _ _ | .swait _ _ _ | .disp _ _ => true
  | _ => false

/-- R399: the core reads and clears the signals of its mask. -/
def SignalsRead (c d : Core) (mask : Dbl) (r : Reg) : Prop :=
  XWrote c d r (c.pending &&& mask) ∧ d.pc = c.pc + 4 ∧ d.pending = c.pending &&& ~~~mask ∧ d.waiting = none ∧
  d.dispatches = c.dispatches ∧ d.mtvec = c.mtvec ∧ d.machineMode = c.machineMode

/-- R401: a core's dispatch has taken effect: it is no longer pending, and a scheduler core is signalled. -/
def DispatchDone (s t : State) (d : Fin 2) (k : Fin 8) (x : Dispatch) : Prop :=
  (t.mcore d k).dispatches = (s.mcore d k).dispatches.erase x ∧ (k.val < 2 → (t.mcore d k).pending.getLsbD 2 = true)

/-- R401: `x` is the first dispatch of its kind that a core has placed. -/
def Placed (s : State) (d : Fin 2) (k : Fin 8) (x : Dispatch) : Prop :=
  (s.mcore d k).dispatches.find? (fun y => y.kind == x.kind) = some x

end Sys2Proof.Claims

open Sys2Proof Machine Claims

/-- R398: BFX takes the field of rs1 that its operands name into rd, touching no memory, and where pos + len exceeds 64 it raises 0x71,
mcause 25 by R396, with the sum. -/
def Obligations.BitFields : Prop :=
  (∀ (s : State) (l p : BitVec 6) (a d : Reg), s.core.machineMode = true → p.toNat + l.toNat < 64 →
    ∃ t, exec (.bfx l p a d) s = .next t ∧ t = { s with ctl := t.ctl } ∧ t.core.pending = s.core.pending ∧
      t.core.dispatches = s.core.dispatches ∧
      CoreWrote s t d (BitVec.ofNat 64 ((s.core.readX a).toNat / 2 ^ p.toNat % 2 ^ (l.toNat + 1)))) ∧
  (∀ (s : State) (l p : BitVec 6) (a d : Reg), s.core.machineMode = true → 64 ≤ p.toNat + l.toNat →
    ∃ t, exec (.bfx l p a d) s = .next t ∧ CoreTraps s t 25 (BitVec.ofNat 64 (p.toNat + l.toNat + 1)))

/-- R394, R396, R397: in machine mode RFETCH takes the next entry of a ring, moving HEAD; on an empty ring it answers 0 and stores
nothing. A descriptor that it refuses raises 24 with the address; outside machine mode each Xalholt instruction raises 2. -/
def Sys2Proof.Claims.EntriesFetched : Prop :=
  (∀ (s : State) (r d : Reg) (a : Nat), s.core.machineMode = true → a = (s.core.readX r).toNat → a % 32 = 0 → populated a = true →
    s.controlReaches s.cd a = true → ringBad s.mem a = false →
    (s.mem.readN (a + 16) 8 = s.mem.readN (a + 24) 8 → ∃ t, exec (.rfetch r d) s = .next t ∧ CoreWrote s t d 0 ∧ t.mem = s.mem) ∧
    (s.mem.readN (a + 16) 8 ≠ s.mem.readN (a + 24) 8 → MemOk s → ∃ t, exec (.rfetch r d) s = .next t ∧
      CoreWrote s t d (BitVec.ofNat 64 (s.mem.readN a 8 +
        s.mem.readN (a + 16) 8 % 2 ^ (s.mem.readN (a + 8) 8 % 32) * 2 ^ ringShift (s.mem.readN (a + 8) 8))) ∧
      Stored s t (a + 16) 8 (s.mem.readN (a + 16) 8 + 1))) ∧
  (∀ (s : State) (r d : Reg), s.core.machineMode = true →
    ((s.core.readX r).toNat % 32 ≠ 0 ∨ (populated (s.core.readX r).toNat = true ∧
      s.controlReaches s.cd (s.core.readX r).toNat = true ∧ ringBad s.mem (s.core.readX r).toNat = true)) →
    ∃ t, exec (.rfetch r d) s = .next t ∧ CoreTraps s t 24 (s.core.readX r)) ∧
  (∀ (s : State) (i : Instr), isXalholtInstr i = true → s.core.machineMode = false →
    ∃ t, exec i s = .next t ∧ CoreTraps s t 2 (wordArg i))

/-- R394, R399, R400: SWAIT reads and clears the signals of its mask that are pending, or waits; a mask beyond the core's signals, or
one of 0 with no limit, raises 26. The wait ends with a signal, or with 0 at its deadline; XTIMECMP_WRITE arms the timer, and its expiry
sets bit 15. -/
def Sys2Proof.Claims.SignalsAndTimers : Prop :=
  (∀ (s : State) (l r d : Reg) (m lim : Dbl), s.core.machineMode = true → m = s.core.readX r → lim = s.core.readX l →
    (∀ b < 64, m.getLsbD b = true → routedTo b (roleOf s.ci) = true) → ¬(m = 0 ∧ lim = 0) →
    (s.core.pending &&& m ≠ 0 → ∃ t, exec (.swait l r d) s = .next t ∧ t = { s with ctl := t.ctl } ∧ SignalsRead s.core t.core m d) ∧
    (s.core.pending &&& m = 0 → ∃ t, exec (.swait l r d) s = .next t ∧ t = { s with ctl := t.ctl } ∧
      t.core = { s.core with waiting := t.core.waiting } ∧ ∃ w, t.core.waiting = some w ∧ w.mask = m ∧ w.rd = d ∧
        w.deadline = if lim = 0 then none else some (s.core.mcycle + lim.toNat))) ∧
  (∀ (s : State) (l r d : Reg), s.core.machineMode = true →
    ((∃ b < 64, (s.core.readX r).getLsbD b = true ∧ routedTo b (roleOf s.ci) = false) ∨
      (s.core.readX r = 0 ∧ s.core.readX l = 0)) →
    ∃ t, exec (.swait l r d) s = .next t ∧ CoreTraps s t 26 (s.core.readX r)) ∧
  (∀ (s : State) (d : Fin 2) (k : Fin 8) (w : Waiting), s.coreAlive d k = true → (s.mcore d k).waiting = some w →
    ((s.mcore d k).pending &&& w.mask ≠ 0 → ∃ t, exec (.swaitWake d.val k.val) s = .next t ∧ t = { s with ctl := t.ctl } ∧
      SignalsRead (s.mcore d k) (t.mcore d k) w.mask w.rd) ∧
    (∀ n, (s.mcore d k).pending &&& w.mask = 0 → w.deadline = some n → n ≤ (s.mcore d k).mcycle →
      ∃ t, exec (.swaitTimeout d.val k.val) s = .next t ∧ t = { s with ctl := t.ctl } ∧
        XWrote (s.mcore d k) (t.mcore d k) w.rd 0 ∧ (t.mcore d k).pc = (s.mcore d k).pc + 4 ∧ (t.mcore d k).waiting = none ∧
        (t.mcore d k).pending = (s.mcore d k).pending)) ∧
  (∀ (s : State) (d : Fin 2) (k : Fin 8) (v : Dbl), s.coreAlive d k = true → (s.mcore d k).machineMode = true →
    ∃ t, exec (.xtimecmpWrite d.val k.val v) s = .next t ∧ t = { s with ctl := t.ctl } ∧
      t.mcore d k = { s.mcore d k with xtimecmp := v }) ∧
  (∀ (s : State) (d : Fin 2) (k : Fin 8), (s.mcore d k).xtimecmp ≠ 0 → (s.mcore d k).xtimecmp.toNat ≤ (s.mcore d k).mcycle →
    ∃ t, exec (.timerExpiry d.val k.val) s = .next t ∧ t = { s with ctl := t.ctl } ∧ (t.mcore d k).xtimecmp = 0 ∧
      ∀ b < 64, (t.mcore d k).pending.getLsbD b = (decide (b = 15) || (s.mcore d k).pending.getLsbD b))

/-- R394, R401, R406: DISP answers the status of the dispatch of its block, 2 where the rectangle is not its context's, and places the
dispatch where that is 0; a block that is misaligned or malformed raises 27 with its address. One of a die that is cut off from the fabric waits. -/
def Sys2Proof.Claims.DispatchesPlaced : Prop :=
  (∀ (s : State) (r d : Reg) (a : Nat), s.core.machineMode = true → a = (s.core.readX r).toNat → a % 64 = 0 → populated a = true →
    s.controlReaches s.cd a = true → s.joinsFabric s.cd = true → dispatchOk s.mem a = true → ∃ t n, exec (.disp r d) s = .next t ∧ t = { s with ctl := t.ctl } ∧
      CoreWrote s t d (BitVec.ofNat 64 n) ∧ n ≤ 2 ∧ n = dispatchStatus s (dispatchAt s.mem a) ∧ t.core.pending = s.core.pending ∧
      t.core.dispatches = (if n = 0 then s.core.dispatches ++ [dispatchAt s.mem a] else s.core.dispatches) ∧
      (rectHeld s (dispatchAt s.mem a) = false ∨
        ((dispatchAt s.mem a).kind ≠ 1 ∧ startHeld s (dispatchAt s.mem a) = false) → n = 2)) ∧
  (∀ (s : State) (r d : Reg), s.core.machineMode = true → (s.core.readX r).toNat % 64 = 0 → populated (s.core.readX r).toNat = true →
    s.joinsFabric s.cd = false → Holds s (.disp r d)) ∧
  (∀ (s : State) (r d : Reg), s.core.machineMode = true →
    ((s.core.readX r).toNat % 64 ≠ 0 ∨ (populated (s.core.readX r).toNat = true ∧
      s.controlReaches s.cd (s.core.readX r).toNat = true ∧ s.joinsFabric s.cd = true ∧
      dispatchOk s.mem (s.core.readX r).toNat = false)) →
    ∃ t, exec (.disp r d) s = .next t ∧ CoreTraps s t 27 (s.core.readX r))

/-- R394 to R401: the instructions of a management core. -/
def Obligations.ManagementCoreResults : Prop :=
  Claims.EntriesFetched ∧ Claims.SignalsAndTimers ∧ Claims.DispatchesPlaced

/-- R401, R325, R370, R372, R345: each dispatch takes effect as its kind says: an act starts with its argument in g1; a region is
curtained for the room named; a saved act stands in the rectangle named; a chain goes to its queue. While an alarm keeps the device quiet
(R424), nothing starts, is restored or handed to a queue; a control die that is cut off from the fabric (R406) has no dispatch taken. -/
def Obligations.DispatchesTake : Prop :=
  (∀ (s : State) (d : Fin 2) (k : Fin 8) (x : Dispatch), x.kind = 0 → Placed s d k x → s.joinsFabric d = true → s.ctl.sec.quiesced = false →
    contextFree s x.id = true → boxEmpty s x = true → startHeld s x = true → s.wingsReady x.ctx x.die = true →
    ∃ t, exec (.dispatchStart d.val k.val) s = .next t ∧ DispatchDone s t d k x ∧ t.mem = s.mem ∧
      (t.act x.id).life = .running ∧ (t.act x.id).ctx = x.ctx ∧ (t.act x.id).regs.acpc = x.addr &&& ~~~(3 : Dbl) ∧
      (∀ r, (t.act x.id).regs.readG r = if r = 1 then x.arg else 0) ∧ (t.act x.id).regs.faultH = false ∧
      (t.act x.id).region.rect = x.box.rect ∧ (t.act x.id).region.die = x.die ∧ (t.act x.id).region.cur = 0) ∧
  (∀ (s : State) (d : Fin 2) (k : Fin 8) (x : Dispatch), x.kind = 1 → Placed s d k x → s.joinsFabric d = true → (s.act x.id).present = true →
    (s.act x.id).curtain = none →
    ∃ t m, exec (.dispatchCurtain d.val k.val) s = .next t ∧ DispatchDone s t d k x ∧ t.mem = s.mem ∧
      (t.act x.id).curtain = some m ∧ m.reason = 0 ∧ m.gates = (s.act x.id).region.gates ∧ (t.act x.id).region.gates = 0 ∧
      (t.act x.id).room = some x.addr ∧ (t.act x.id).regs = (s.act x.id).regs) ∧
  (∀ (s : State) (d : Fin 2) (k : Fin 8) (x : Dispatch) (g : GreenRoom), x.kind = 2 → Placed s d k x →
    s.joinsFabric d = true → s.ctl.sec.quiesced = false → roomOf s x = some g → s.greenOf x.id = some g → g.act.id = x.id →
    s.mayPlace x.id x.box.x0 x.box.y0 = true → s.roomFault g (s.act x.id).ctx = none →
    ∃ t, exec (.dispatchRestore d.val k.val) s = .next t ∧ DispatchDone s t d k x ∧ (g.banks = [] → t.mem = s.mem) ∧
      (t.act x.id).life = (if g.act.life = .halted ∧ (s.act x.id).taskOpen = true then .running else g.act.life) ∧
      (t.act x.id).region.x0 = x.box.x0 ∧ (t.act x.id).region.y0 = x.box.y0 ∧
      (t.act x.id).region.gates = g.act.region.gates ∧ (t.act x.id).regs = (s.act x.id).regs) ∧
  (∀ (s : State) (d : Fin 2) (k : Fin 8) (x : Dispatch) (g : Graph) (n : Nat) (y : GNode) (p : Dbl × Dbl) (q : QueueId), x.kind = 3 →
    Placed s d k x → s.joinsFabric d = true → s.ctl.sec.quiesced = false → chainNode s x = some (g, n, y) → readPair s x.ctx x.addr = .got p s → q = .ctx g.ctx (bits x.arg 0 6) →
    (s.ctx g.ctx).qmask.getLsbD (bits x.arg 0 6) = true → s.bound q = true → (s.queue q).chain = none → (s.queue q).node = none →
    (s.queue q).state ≠ 2 → bits p.2 0 32 ≠ 0 →
    ∃ t, exec (.dispatchChain d.val k.val) s = .next t ∧ DispatchDone s t d k x ∧ t.mem = s.mem ∧ t.acts = s.acts ∧
      (t.queue q).chain = some p.1 ∧ (t.queue q).head = p.1 ∧ (t.queue q).node = some (g.id, n)) ∧
  (∀ (s : State) (d : Fin 2) (k : Fin 8), s.ctl.sec.quiesced = true ∨ s.joinsFabric d = false →
    exec (.dispatchStart d.val k.val) s = .next s ∧
    exec (.dispatchRestore d.val k.val) s = .next s ∧ exec (.dispatchChain d.val k.val) s = .next s) ∧
  (∀ (s : State) (d : Fin 2) (k : Fin 8), s.joinsFabric d = false → exec (.dispatchCurtain d.val k.val) s = .next s)

namespace Sys2Proof.Claims
open Sys2Proof Machine

/-! ## Control dies, security, images and ports -/

/-- R406: the fabric dies beside an understudy that it reaches without its peer. -/
def fenceable (s : State) (d : Fin 2) : List Nat :=
  (attached d).filter (reach s (8 + (peerOf d).val) 10 [8 + d.val]).contains

/-- R11, R408: a control die reaches an address, which no fence cuts off. -/
def Near (s : State) (d : Fin 2) (pa : Nat) : Prop := s.controlReaches d pa = true ∧ s.fencedMem pa = false

/-- R404: the cycle is the 100 µs boundary `b`, and scheduler core 0 of the control die works. -/
def AtBeat (s : State) (d : Fin 2) (b : Nat) : Prop := s.cycle = 230000 * b ∧ s.beats d = true

/-- R421: a request and what it asks: where it comes from, the code, the blocks, the nonce, and whether the response is signed. -/
def spdmOf (s : State) : Instr → Option (Bool × Nat × List (List Byte) × List Byte × Bool)
  | .getVersion r => some (r, 0x84, [], [], false)
  | .getCapabilities r => some (r, 0xE1, [], [], false)
  | .negotiateAlgorithms r p h => some (r, 0xE3, [[if p then 1 else 0], [if h then 1 else 0]], [], false)
  | .getDigests r => some (r, 0x81, [], [], false)
  | .getCertificate r => some (r, 0x82, [], [], false)
  | .challenge r n => some (r, 0x83, [1, 2, 3, 4, 5, 6, 7].map (measurement s (s.responder r)), n, true)
  | .getMeasurements r k n => some (r, 0xE0, if k = 0xFF then [1, 2, 3, 4, 5, 6, 7].map (measurement s (s.responder r))
      else [measurement s (s.responder r) k], n, true)
  | _ => none

/-- R442: the request at HEAD of a die's ring, with its OP and TAG, that is well formed and not of an act that has left. -/
def Asked (s : State) (die op tag slot : Nat) (w0 w1 w2 : Dbl) : Prop :=
  configRequest s die = some (w0, w1, w2, 0) ∧ bits w0 0 2 = op ∧ bits w0 16 16 = tag ∧ bits w0 2 2 = slot ∧
  configBad w0 0 = false ∧ s.staleRun die = false

/-- R442: the request is taken from its ring, and an answer of status `st` is placed where there is room. -/
def Answered (s t : State) (die st tag : Nat) : Prop :=
  ∀ u, ringPutPhys (s.ringPop (s.ctl.configRings[die]!).1) (s.ctl.configRings[die]!).2 5
      (leBytes 8 (st + tag * 2 ^ 16) ++ leBytes 24 0) = some u → t.mem = u.mem

end Sys2Proof.Claims

open Sys2Proof Machine Claims

/-- R404, R399: a beat is sent at each boundary over each row that is up; one that arrives is noted, and signalled; a boundary without one
counts a miss. -/
def Sys2Proof.Claims.HeartsBeat : Prop :=
  (∀ (s : State) (d : Fin 2) (b : Nat), AtBeat s d b → (s.cdie d).sent ≤ b →
    ∃ t, exec (.heartbeatSend d.val) s = .next t ∧ t = { s with ctl := t.ctl } ∧ (t.cdie d).sent = b + 1 ∧
      t.ctl.beats = s.ctl.beats ++ ([0, 1].filter s.rowUp).map fun r => ((peerOf d).val, b, r)) ∧
  (∀ (s : State) (d : Fin 2) (b : Nat × Nat × Nat), s.ctl.beats.find? (fun b => b.1 == d.val) = some b →
    ∃ t, exec (.heartbeatArrival d.val) s = .next t ∧ t = { s with ctl := t.ctl } ∧ t.ctl.beats = s.ctl.beats.erase b ∧
      (t.cdie d).beat = true ∧ (t.cdie d).misses = 0 ∧ (t.mcore d 0).pending.getLsbD 8 = true ∧
      (t.mcore d 1).pending.getLsbD 8 = true) ∧
  (∀ (s : State) (d : Fin 2) (b : Nat), AtBeat s d b → 0 < b → (s.cdie d).checked < b →
    ((s.cdie d).beat = true → ∃ t, exec (.heartbeatMiss d.val) s = .next t ∧ t = { s with ctl := t.ctl } ∧
      t.cdie d = { s.cdie d with checked := b, beat := false }) ∧
    ((s.cdie d).beat = false → ((s.cdie d).misses ≠ 2 ∨ (s.cdie d).understudy = true) →
      ∃ t, exec (.heartbeatMiss d.val) s = .next t ∧ t = { s with ctl := t.ctl } ∧
        t.cdie d = { s.cdie d with checked := b, misses := (s.cdie d).misses + 1 }))

/-- R404, R406, R407, R409: the third miss makes an understudy, which fences its peer; a fence of CDE's that has been held takes effect
unless CDE is fenced; the understudy adopts once its fence is in effect, and becomes power master; a control die that fails stops. -/
def Sys2Proof.Claims.DiesTakenOver : Prop :=
  (∀ (s : State) (d : Fin 2) (b : Nat), AtBeat s d b → 0 < b → (s.cdie d).checked < b → (s.cdie d).beat = false →
    (s.cdie d).misses = 2 → (s.cdie d).understudy = false → fenceable s d ≠ [] →
    ∃ t, exec (.heartbeatMiss d.val) s = .next t ∧ (t.cdie d).understudy = true ∧ (t.cdie d).misses = 3 ∧
      (d = 0 → ∀ f ∈ fenceable s d, (f, 9) ∈ t.ctl.fences) ∧
      (d = 1 → t.ctl.heldFences = s.ctl.heldFences ++ (fenceable s d).map fun f => (f, s.cycle + 230000))) ∧
  (∀ (s : State) (die : Nat) (f : Nat × Nat), s.ctl.heldFences.find? (fun f => f.1 == die) = some f →
    ((∀ x ∈ s.ctl.fences, x.2 ≠ 9) → f.2 ≤ s.cycle → ∃ t, exec (.fenceHoldExpiry die) s = .next t ∧
      t.ctl.heldFences = s.ctl.heldFences.erase f ∧ (die, 8) ∈ t.ctl.fences ∧ ((die, 8) ∉ s.ctl.fences → t.ctl.hostUp = false)) ∧
    ((∃ x ∈ s.ctl.fences, x.2 = 9) → ∃ t, exec (.fenceHoldExpiry die) s = .next t ∧
      t.ctl.heldFences = s.ctl.heldFences.erase f ∧ t.ctl.fences = s.ctl.fences)) ∧
  (∀ (s : State) (d : Fin 2) (f : Nat), (s.cdie d).understudy = true → (s.cdie d).adopted = false →
    (f, 8 + (peerOf d).val) ∈ s.ctl.fences →
    ∃ t, exec (.adoption d.val) s = .next t ∧ (t.cdie d).adopted = true ∧ t.ctl.power.master = d.val) ∧
  (∀ (s : State) (d : Fin 2), ∃ t, exec (.controlDieFailure d.val) s = .next t ∧ t = { s with ctl := t.ctl } ∧
    t.cdie d = { s.cdie d with failed := true })

/-- R410, R412, R416: a cap, bounded, governs from the second boundary on, its entry taken from the master's ring; a request that the ring
has no room for waits, and one under a lock is none; a share is taken within 256; a loss of time, or its
return, is signalled. -/
def Sys2Proof.Claims.RequestsTaken : Prop :=
  (∀ (s : State) (mw ring : Nat) (u : State), s.ctl.sec.locked = false → ring = (s.cdie (Fin.ofNat 2 s.ctl.power.master)).powerRing →
    (ring = 0 ∧ u = s ∨ ring ≠ 0 ∧ s.mem.readN (ring + 24) 8 = s.mem.readN (ring + 16) 8 ∧
      ringPutPhys s ring 4 (leBytes 8 1 ++ leBytes 8 mw) = some u) →
    ∃ t, exec (.powerCapRequest mw) s = .next t ∧ t.acts = s.acts ∧
      t.mem = (if ring = 0 then s.mem else (u.ringPop ring).mem) ∧ (t.mcore 0 6).pending.getLsbD 11 = true ∧
      t.ctl.power.caps = s.ctl.power.caps ++ [(s.interval + 2, if mw < 90000 then 90000 else if 600000 < mw then 600000 else mw)]) ∧
  (∀ (s : State) (mw ring part stack share : Nat), ring = (s.cdie (Fin.ofNat 2 s.ctl.power.master)).powerRing →
    (s.ctl.sec.locked = true ∨ ring ≠ 0 ∧ (∀ bs, ringPutPhys s ring 4 bs = none)) →
    Holds s (.powerCapRequest mw) ∧ Holds s (.bandwidthShareRequest part stack share)) ∧
  (∀ (s : State) (part stack share : Nat) (p : Partition), s.part? part = some p → stack < 8 →
    s.ctl.sec.locked = false → (s.cdie (Fin.ofNat 2 s.ctl.power.master)).powerRing = 0 → sharesBeside s part stack + share ≤ 256 →
    ∃ t p', exec (.bandwidthShareRequest part stack share) s = .next t ∧ t.acts = s.acts ∧ t.mem = s.mem ∧
      t.part? part = some p' ∧ p'.spec = p.spec ∧
      ∀ k, tally k p'.shares = if k = stack then share else tally k p.shares) ∧
  (∀ s : State, s.ctl.bell.holdover = false → ∃ t, exec .timeSourceLoss s = .next t ∧ t = { s with ctl := t.ctl } ∧
    t.ctl.bell = { s.ctl.bell with holdover := true } ∧ (t.mcore 0 0).pending.getLsbD 13 = true) ∧
  (∀ s : State, s.ctl.bell.holdover = true → ∃ t n, exec .timeSourceReturn s = .next t ∧
    t.ctl.bell = { s.ctl.bell with holdover := false, slew := n } ∧ t.acts = s.acts ∧ t.mem = s.mem ∧
    (t.mcore 0 0).pending.getLsbD 13 = true)

/-- R419, R421, R423, R424: what the security core is asked for completes: tamper locks the package, and a supply glitch within 1 s of another;
one outside quiesces it; a signed release with no act saved ends the quiesce; a fuse request without a signature is a failure; each
attestation request of the hypervisor's ring leaves its response. -/
def Sys2Proof.Claims.SecurityEventsComplete : Prop :=
  (∀ s : State, s.ctl.sec.locked = false → ∃ t, exec .tamper s = .next t ∧ t.ctl.sec.locked = true ∧ t.ctl.sec.keysErased = true) ∧
  (∀ (s : State) (n : Nat), s.ctl.sec.locked = false → s.ctl.sec.lastGlitch = some n → s.cycle ≤ n + 2300000000 →
    ∃ t, exec .supplyGlitch s = .next t ∧ t.ctl.sec.locked = true) ∧
  (∀ s : State, s.ctl.sec.locked = false → s.ctl.sec.lastGlitch = none → s.ctl.sec.quiesced = false →
    ∃ t, exec .supplyGlitch s = .next t ∧ t.ctl.sec.quiesced = true ∧ t.ctl.sec.lastGlitch = some s.cycle) ∧
  (∀ (s : State) (r : List Byte), s.ctl.sec.quiesced = true → s.ctl.sec.locked = false → signedOk s.ctl.sec r = true →
    s.sch.green = [] → ∃ t, exec (.alarmRelease r) s = .next t ∧ t.ctl.sec.quiesced = false) ∧
  (∀ (s : State) (lms revoke : Bool) (slot : Nat) (key r : List Byte), s.ctl.sec.locked = false → slot < 8 →
    signedOk s.ctl.sec r = false →
    ∃ t, exec (.fuseRequest lms slot revoke key r) s = .next t ∧ t.ctl.sec.keys = s.ctl.sec.keys ∧ s.interval ∈ t.ctl.sec.failures) ∧
  (∀ s : State, s.securityAlive s.leader = true →
    (∃ t, exec (.getVersion true) s = .next t ∧ t.ctl.sec.lastResponse = Config.spdmResponse 0x84 [] []) ∧
    (∃ t, exec (.getCapabilities true) s = .next t ∧ t.ctl.sec.lastResponse = Config.spdmResponse 0xE1 [] []) ∧
    (∀ p h, ∃ t, exec (.negotiateAlgorithms true p h) s = .next t ∧
      t.ctl.sec.lastResponse = Config.spdmResponse 0xE3 [[if p then 1 else 0], [if h then 1 else 0]] []) ∧
    (∃ t, exec (.getDigests true) s = .next t ∧ t.ctl.sec.lastResponse = Config.spdmResponse 0x81 [] []) ∧
    (∃ t, exec (.getCertificate true) s = .next t ∧ t.ctl.sec.lastResponse = Config.spdmResponse 0x82 [] []) ∧
    (∀ n, ∃ t x, exec (.challenge true n) s = .next t ∧ t.ctl.sec.lastResponse =
      Config.spdmResponse 0x83 ([1, 2, 3, 4, 5, 6, 7].map (measurement s s.leader)) n ++ x) ∧
    (∀ k n, k ≠ 0xFF → ∃ t x, exec (.getMeasurements true k n) s = .next t ∧ t.ctl.sec.lastResponse =
      Config.spdmResponse 0xE0 [measurement s s.leader k] n ++ x))

/-- R394, R397 to R401: the instructions of a management core complete in machine mode: RFETCH of an empty ring with 0, BFX with its field,
SWAIT with the signals of its mask that are pending, and DISP with the status of its block; a wait ends, the timer is armed and expires,
and a dispatch that starts an act starts it. -/
def Sys2Proof.Claims.CoresComplete : Prop :=
  (∀ (s : State) (r d : Reg) (a : Nat), s.core.machineMode = true → a = (s.core.readX r).toNat → a % 32 = 0 → populated a = true →
    s.controlReaches s.cd a = true → ringBad s.mem a = false → s.mem.readN (a + 16) 8 = s.mem.readN (a + 24) 8 →
    ∃ t, exec (.rfetch r d) s = .next t ∧ CoreWrote s t d 0) ∧
  (∀ (s : State) (l p : BitVec 6) (a d : Reg), s.core.machineMode = true → p.toNat + l.toNat < 64 →
    ∃ t, exec (.bfx l p a d) s = .next t ∧
      CoreWrote s t d (BitVec.ofNat 64 ((s.core.readX a).toNat / 2 ^ p.toNat % 2 ^ (l.toNat + 1)))) ∧
  (∀ (s : State) (l r d : Reg), s.core.machineMode = true → s.core.pending &&& s.core.readX r ≠ 0 →
    (∀ b < 64, (s.core.readX r).getLsbD b = true → routedTo b (roleOf s.ci) = true) →
    ∃ t, exec (.swait l r d) s = .next t ∧ SignalsRead s.core t.core (s.core.readX r) d) ∧
  (∀ (s : State) (r d : Reg) (a : Nat), s.core.machineMode = true → a = (s.core.readX r).toNat → a % 64 = 0 → populated a = true →
    s.controlReaches s.cd a = true → s.joinsFabric s.cd = true → dispatchOk s.mem a = true →
    ∃ t, exec (.disp r d) s = .next t ∧ CoreWrote s t d (BitVec.ofNat 64 (dispatchStatus s (dispatchAt s.mem a)))) ∧
  (∀ (s : State) (d : Fin 2) (k : Fin 8) (w : Waiting), s.coreAlive d k = true → (s.mcore d k).waiting = some w →
    (s.mcore d k).pending &&& w.mask ≠ 0 →
    ∃ t, exec (.swaitWake d.val k.val) s = .next t ∧ SignalsRead (s.mcore d k) (t.mcore d k) w.mask w.rd) ∧
  (∀ (s : State) (d : Fin 2) (k : Fin 8) (w : Waiting) (n : Nat), s.coreAlive d k = true → (s.mcore d k).waiting = some w →
    (s.mcore d k).pending &&& w.mask = 0 → w.deadline = some n → n ≤ (s.mcore d k).mcycle →
    ∃ t, exec (.swaitTimeout d.val k.val) s = .next t ∧ (t.mcore d k).waiting = none ∧
      XWrote (s.mcore d k) (t.mcore d k) w.rd 0) ∧
  (∀ (s : State) (d : Fin 2) (k : Fin 8) (v : Dbl), s.coreAlive d k = true → (s.mcore d k).machineMode = true →
    ∃ t, exec (.xtimecmpWrite d.val k.val v) s = .next t ∧ (t.mcore d k).xtimecmp = v) ∧
  (∀ (s : State) (d : Fin 2) (k : Fin 8), (s.mcore d k).xtimecmp ≠ 0 → (s.mcore d k).xtimecmp.toNat ≤ (s.mcore d k).mcycle →
    ∃ t, exec (.timerExpiry d.val k.val) s = .next t ∧ (t.mcore d k).xtimecmp = 0 ∧ (t.mcore d k).pending.getLsbD 15 = true) ∧
  (∀ (s : State) (d : Fin 2) (k : Fin 8) (x : Dispatch), x.kind = 0 → Placed s d k x → s.joinsFabric d = true → s.ctl.sec.quiesced = false →
    contextFree s x.id = true → boxEmpty s x = true → startHeld s x = true → s.wingsReady x.ctx x.die = true → ∃ t, exec (.dispatchStart d.val k.val) s = .next t ∧ (t.act x.id).life = .running)

/-- R399, R404 to R412, R416: what the control dies do among themselves, what they are asked for, and what their cores complete. -/
def Obligations.ControlDiesWork : Prop :=
  Claims.HeartsBeat ∧ Claims.DiesTakenOver ∧ Claims.RequestsTaken ∧ Claims.SecurityEventsComplete ∧ Claims.CoresComplete

/-- R423, R424: tamper is a level-3 alarm: the keys are erased, every fabric die is cleared, and every management core but the security cores is
held; a supply glitch is a level-2 one, or level 3 within 1 s of another; a signed release ends the quiesce, where no saved act goes back
with it, and an unsigned one does not. -/
def Sys2Proof.Claims.AlarmsRaised : Prop :=
  (∀ s : State, s.ctl.sec.locked = false → ∃ t, exec .tamper s = .next t ∧ t.ctl.sec.level = 3 ∧ 3 ≤ t.ctl.sec.highest ∧
    t.ctl.sec.locked = true ∧ t.ctl.sec.keysErased = true ∧ (∀ d, (t.cdie d).keys = { identity := false, sessions := [], contexts := [] }) ∧
    (∀ p ∈ t.fab.tiles, 8 ≤ p.1.die) ∧ (∀ id, (s.act id).life ≠ .switchedOut → (t.act id).life = .free) ∧
    ∀ d k, k ≠ 7 → t.mcore d k = { Core.reset with held := true }) ∧
  (∀ s : State, s.ctl.sec.locked = false →
    ((∀ n, s.ctl.sec.lastGlitch = some n → n + 2300000000 < s.cycle) → s.ctl.sec.quiesced = false →
      ∃ t, exec .supplyGlitch s = .next t ∧ t.ctl.sec.quiesced = true ∧ t.ctl.sec.lastGlitch = some s.cycle ∧
        2 ≤ t.ctl.sec.level ∧ t.ctl.sec.locked = false) ∧
    (∀ n, s.ctl.sec.lastGlitch = some n → s.cycle ≤ n + 2300000000 →
      ∃ t, exec .supplyGlitch s = .next t ∧ t.ctl.sec.level = 3 ∧ t.ctl.sec.locked = true)) ∧
  (∀ (s : State) (r : List Byte), s.ctl.sec.quiesced = true → s.ctl.sec.locked = false →
    (signedOk s.ctl.sec r = true → (∀ g ∈ s.sch.green, g.reason ≠ 3 ∧ g.reason ≠ 5) →
      ∃ t, exec (.alarmRelease r) s = .next t ∧ t.ctl.sec = { s.ctl.sec with quiesced := false, level := 0 } ∧ t.acts = s.acts) ∧
    (signedOk s.ctl.sec r = false →
      ∃ t, exec (.alarmRelease r) s = .next t ∧ t.ctl.sec.quiesced = true ∧ t.acts = s.acts ∧ s.interval ∈ t.ctl.sec.failures))

/-- R419, R421: a signed request fuses a key into an empty slot, or revokes a slot; an unsigned one changes no key. Attestation answers
with the response to the request, signed where the request asks for it and the identity key still exists. -/
def Sys2Proof.Claims.KeysAndAttestation : Prop :=
  (∀ (s : State) (lms revoke : Bool) (slot : Nat) (key r : List Byte), s.ctl.sec.locked = false → slot < 8 →
    (signedOk s.ctl.sec r = true → r.take (r.length - 1852) = Config.fuseForm lms slot revoke key →
      ∃ t, exec (.fuseRequest lms slot revoke key r) s = .next t ∧ t = { s with ctl := t.ctl } ∧
        (revoke = true → t.ctl.sec.key lms slot = none) ∧
        (revoke = false → (∀ k ∈ s.ctl.sec.keys, ¬(k.lms = lms ∧ k.slot = slot)) → t.ctl.sec.key lms slot = some key) ∧
        ∀ l n, (l ≠ lms ∨ n ≠ slot) → t.ctl.sec.key l n = s.ctl.sec.key l n) ∧
    (signedOk s.ctl.sec r = false →
      ∃ t, exec (.fuseRequest lms slot revoke key r) s = .next t ∧ t.ctl.sec.keys = s.ctl.sec.keys)) ∧
  (∀ (s : State) (i : Instr) (ring signed : Bool) (code : Nat) (bs : List (List Byte)) (n : List Byte),
    spdmOf s i = some (ring, code, bs, n, signed) →
    (s.spdmReaches ring = true → s.securityAlive (s.responder ring) = true → ∃ t, exec i s = .next t ∧ t = { s with ctl := t.ctl } ∧
      t.ctl = { s.ctl with sec := { s.ctl.sec with lastResponse := t.ctl.sec.lastResponse } } ∧
      t.ctl.sec.lastResponse = Config.spdmResponse code bs n ++
        if signed = true ∧ (s.cdie (s.responder ring)).keys.identity = true
          then Config.identitySign (s.responder ring).val (Config.spdmResponse code bs n) else []) ∧
    (s.spdmReaches ring = false ∨ s.securityAlive (s.responder ring) = false → exec i s = .next s))

/-- R419, R421, R423, R424: alarms, keys and attestation. -/
def Obligations.SecurityWorks : Prop := Claims.AlarmsRaised ∧ Claims.KeysAndAttestation

/-- R254, R399, R437, R440, R441: an image is admitted if and only if its checks find no error; the security core answers a verify
request with what the image's signatures give; relocation asks for the check, and then answers with what it has done. -/
def Sys2Proof.Claims.ImagesChecked : Prop :=
  (∀ (s : State) (c pa : Nat) (va : Dbl) (em ps : List Nat), translateCtl (s.signal 4) c va .read = .ok pa →
    (s.signal 4).imagePages c va pa = some ps → (relocatable s.mem pa = false ∨ em = []) → pa ∉ em →
    (((s.signal 4).checkImage ps pa em).1 = none → ∃ t x, exec (.imageAdmission c va em) s = .next t ∧ x ∈ t.sch.admitted ∧
      x.ctx = c ∧ x.va = va ∧ x.pa = pa ∧ x.pages = ps ∧ x.script = isScript (s.view pa ps) pa ∧ t.acts = s.acts ∧ t.mem = s.mem) ∧
    (∀ e, ((s.signal 4).checkImage ps pa em).1 = some e → ∃ t, exec (.imageAdmission c va em) s = .next t ∧
      t.sch.admitted = s.sch.admitted)) ∧
  (∀ (s : State) (d : Fin 2) (k ring a : Nat), MemOk s → ring = tally k (s.cdie d).verifyRings → ringHead s.mem ring = some a →
    s.ctl.sec.quiesced = false → s.securityAlive d = true → Near s d ring → Near s d a → Near s d (s.mem.readN a 8) →
    Near s d (s.mem.readN (a + 16) 8) →
    ∃ t, exec (.verifyRequest d.val k) s = .next t ∧ t.mem.readN (s.mem.readN (a + 16) 8) 8 =
      2 ^ 63 + if imageVerifies (s.ringPop ring) (s.ringPop ring).mem (s.mem.readN a 8) (s.mem.readN (a + 8) 8) = true then 0 else 0x37) ∧
  (∀ (s : State) (c k pa src ans : Nat), populated pa = true → src = s.mem.readN pa 8 → populated src = true →
    populated (s.mem.readN (pa + 8) 8) = true → ans = s.mem.readN (pa + 0x30) 8 → populated ans = true →
    relocReach s (Fin.ofNat 2 c) pa = true → (s.cdie (Fin.ofNat 2 c)).failed = false →
    (s.mcore (Fin.ofNat 2 c) (Fin.ofNat 8 k)).held = false →
    (pa ∉ s.ctl.relocs → ∀ u, ringPutPhys (s.store ans 8 0) (s.mem.readN (pa + 0x28) 8) 5
        (leBytes 8 src ++ leBytes 8 (64 + s.mem.readN (src + 8) 8) ++ leBytes 8 ans ++ leBytes 8 0) = some u →
      ∃ t, exec (.relocationRequest c k pa) s = .next t ∧ t.mem = u.mem ∧ pa ∈ t.ctl.relocs ∧ t.acts = s.acts) ∧
    (pa ∈ s.ctl.relocs → 2 ^ 63 ≤ s.mem.readN ans 8 →
      ∃ t, exec (.relocationRequest c k pa) s = .next t ∧ pa ∉ t.ctl.relocs ∧ t.acts = s.acts ∧
        t.mem = if s.mem.readN ans 8 % 256 = 0
          then (relocate s.mem pa).1.writeN (pa + 0x38) 8 (2 ^ 63 + (relocate s.mem pa).2)
          else s.mem.writeN (pa + 0x38) 8 (2 ^ 63 + 0x37)))

/-- R255, R256, R442, R443: a load begins with a CLEAR; a die clears the slot of its free tiles and answers; a tile that takes its block
holds its words; a run that has ended leaves its slot LOADED, or EMPTY with the error. -/
def Sys2Proof.Claims.LoadsRun : Prop :=
  (∀ (s : State) (id k : Nat) (j : LoadJob), k < 4 → (∀ r ∈ s.ctl.loads, ¬(r.act = id ∧ r.slot = k)) →
    ((s.act id).slot k).job = some j → (s.act id).present = true →
    (∀ e, loadImage s (s.act id) j.image = .error e → ((s.act id).slot k).st = .loading → ∃ t, exec (.loadRequest id k) s = .next t ∧
      ((t.act id).slot k).st = .empty ∧ ((t.act id).slot k).job = none ∧
      ((t.act id).slot k).error = some (e, BitVec.ofNat 64 (0xFFF + k * 2 ^ 12))) ∧
    (∀ pa, loadImage s (s.act id) j.image = .ok pa → (s.ctl.configRings[(s.act id).region.die]!).1 ≠ 0 →
      (∀ r ∈ s.ctl.loads, r.die ≠ (s.act id).region.die) →
      ∃ t r, exec (.loadRequest id k) s = .next t ∧ r ∈ t.ctl.loads ∧ r.act = id ∧ r.slot = k ∧ r.no = j.no ∧ r.image = pa ∧
        r.die = (s.act id).region.die ∧ r.phase = .clear ∧ r.left = imNblk (s.mem.dbl pa) ∧ t.acts = s.acts)) ∧
  (∀ (s : State) (die tag k : Nat) (w0 w1 w2 : Dbl), Asked s die 0 tag k w0 w1 w2 → bits w1 32 32 = 0 →
    rectFits (w1.extractLsb' 0 32) = true → s.deadRun die = false → (∀ t ∈ (rectRegion die (w1.extractLsb' 0 32)).tiles, s.tileHolds t k = false) →
    ∃ t, exec (.configClear die) s = .next t ∧ Answered s t die 0 tag ∧
      ∀ x ∈ (rectRegion die (w1.extractLsb' 0 32)).tiles, t.cfg x k = if s.loadsTile x = true then none else s.cfg x k) ∧
  (∀ (s : State) (die tag k : Nat) (w0 w1 w2 : Dbl) (x : TileId) (m : Mem), Asked s die 1 tag k w0 w1 w2 → w1.toNat % 8 = 0 →
    s.deadRun die = false → m = (match s.runOn die with | none => s.mem | some r => s.imageMem r.image) →
    (w2 = 0x0F8 ∨ w2 = 0x1F8) → x = { die := die, tile := bits w0 4 12 } → s.tileHolds x k = false →
    k < (s.tile x).cfg.length →
    ∃ t, exec (.configWrite die) s = .next t ∧ Answered s t die (s.offerRun x k w1.toNat).1 tag ∧
      t.cfg x k = if (s.offerRun x k w1.toNat).1 ≠ 0 then none else if s.listed x = true then some idleCfg
        else some (blockCfg m w1.toNat)) ∧
  (∀ (s : State) (id k : Nat) (r : LoadRun) (j : LoadJob), k < 4 →
    s.ctl.loads.find? (fun r => r.act == id && r.slot == k && r.phase == .done) = some r →
    ((s.act id).slot k).job = some j → j.no = r.no → r.code < 256 →
    ∃ t, exec (.sceneLoadComplete id k) s = .next t ∧ r ∉ t.ctl.loads ∧ t.mem = s.mem ∧ ((t.act id).slot k).job = none ∧
      (t.act id).regs = (s.act id).regs ∧
      (r.code = 0 → ((t.act id).slot k).st = (if ((s.act id).slot k).st = .inForce then .inForce else .loaded) ∧
        ((t.act id).slot k).image = j.image ∧ ((t.act id).slot k).error = ((s.act id).slot k).error) ∧
      (r.code ≠ 0 → ((t.act id).slot k).st = .empty ∧
        ((t.act id).slot k).error = some (BitVec.ofNat 8 r.code, BitVec.ofNat 64 (r.tile + k * 2 ^ 12))))

/-- R254 to R256, R399, R437, R440 to R443: images and the loads of their scenes. -/
def Obligations.ImagesAndLoads : Prop := Claims.ImagesChecked ∧ Claims.LoadsRun

/-- R427, R428: a clean scrub changes nothing; a correctable finding is counted; an uncorrectable granule is poisoned, and counted. -/
def Sys2Proof.Claims.ScrubsFind : Prop :=
  ∀ (s : State) (w : ScrubTarget),
    exec (.scrub w .clean) s = .next s ∧
    (∃ t, exec (.scrub w .correctable) s = .next t ∧ t.fab = s.fab ∧ t.acts = s.acts ∧ t.mem = s.mem ∧
      ∀ n, tally n t.ctl.counters = if n = 0x10000 * (scrubDie w + 1) + scrubCounter w then satAdd64 (tally n s.ctl.counters) 1
        else tally n s.ctl.counters) ∧
    ∃ t, exec (.scrub w .uncorrectable) s = .next t ∧ t.acts = s.acts ∧ t.mem = s.mem ∧
      (∀ n, tally n t.ctl.counters = if n = 0x10000 * (scrubDie w + 1) + 0x78 then satAdd64 (tally n s.ctl.counters) 1
        else tally n s.ctl.counters) ∧
      match w with
      | .bank d b g => g ∈ (t.bank (bankKey d b)).poison
      | .slot x k g => k < 16 → g ∈ ((t.tile x).opSlot k).poison
      | .shadow x => (t.tile x).shadowBad = true
      | .prompter id => id ∈ t.fab.badShadows
      | .hbm g => g ∈ t.fab.hbmPoison

/-- R18, R419, R420, R424: a package reset leaves what reset leaves, and keeps the fuses and the highest alarm level; it holds each core
whose image was refused, and ends no lock. A die's reset frees its act contexts and clears its tiles, banks and slices. -/
def Sys2Proof.Claims.ResetsReset : Prop :=
  (∀ (s : State) (imgs : List Firmware) (ref : List (Nat × Nat × Bool)) (b : BootRecord), s.ctl.sec.locked = false →
    ref = bootRefusals s.ctl.sec imgs 0 ++ bootRefusals s.ctl.sec imgs 1 → (∀ r ∈ ref, r.2.2 = false) →
    ∃ t, exec (.packageReset imgs b) s = .next t ∧ t.mem = [] ∧ t.acts = [] ∧ t.ctxs = [] ∧ t.cycle = 0 ∧ t.fab.tiles = [] ∧
      t.eng = State.reset.eng ∧ t.sch = State.reset.sch ∧ t.ctl.sec.level = 0 ∧ t.ctl.sec.quiesced = false ∧
      t.ctl.sec.keys = s.ctl.sec.keys ∧ t.ctl.sec.highest = s.ctl.sec.highest ∧ t.ctl.counters = [] ∧
      (∀ (d : Fin 2) (k : Fin 8), (t.mcore d k).held = true ↔ ∃ r ∈ ref, r.1 = d.val ∧ (r.2.1 = k.val ∨ r.2.1 = 7)) ∧
      ∀ (d : Fin 2) (k : Fin 16), ((t.cdie d).apps[k]).held = true ↔ ∃ r ∈ ref, r.1 = d.val ∧ (r.2.1 = 8 ∨ r.2.1 = 7)) ∧
  (∀ (s : State) (imgs : List Firmware) (b : BootRecord), s.ctl.sec.locked = true → Holds s (.packageReset imgs b)) ∧
  (∀ (s : State) (die : Nat), ∃ t, exec (.fabricDieReset die) s = .next t ∧ t.mem = s.mem ∧ t.ctl = s.ctl ∧
    (∀ id, actDie id = die → (s.act id).life ≠ .switchedOut → (t.act id).life = .free) ∧
    (∀ id, (actDie id ≠ die ∨ ∀ p ∈ s.acts, p.1 = id → p.2.life = .switchedOut) → t.act id = s.act id) ∧
    (∀ p, p ∈ t.fab.tiles ↔ p ∈ s.fab.tiles ∧ p.1.die ≠ die) ∧ (∀ p, p ∈ t.fab.banks ↔ p ∈ s.fab.banks ∧ p.1 / 512 ≠ die) ∧
    ∀ e, e ∈ t.eng.slices ↔ e ∈ s.eng.slices ∧ e.die ≠ die)

/-- R11, R19, R20: a port takes a frame, a link goes down and comes up, a host is attached; what it writes is stored, where its function
may reach, or waits where no link leads there, and what it reads changes nothing; an address that does not exist stops the machine. -/
def Sys2Proof.Claims.PortsAndLinks : Prop :=
  (∀ (s : State) (n : Nat) (f : List Byte) (ptp : Bool), s.ctl.sec.quiesced = false → s.ctl.sec.locked = false →
    f.length ≤ 9216 → s.cdFailed (n / 4) = false →
    ∃ t, exec (.ethFrame n f ptp) s = .next t ∧ t = { s with ctl := { s.ctl with eth := t.ctl.eth } } ∧
      ∀ (i : Nat) (p : EthPort), s.ctl.eth[i]? = some p → ∃ q, t.ctl.eth[i]? = some q ∧ q.port = p.port ∧ q.up = p.up ∧
        q.frames = if p.port = n ∧ p.up = true then p.frames ++ [(f, if ptp then some s.cycle else none)] else p.frames) ∧
  (∀ (s : State) (a b : Nat), b ∈ joined a → ∃ t, exec (.dieLinkDown a b) s = .next t ∧ t = { s with ctl := t.ctl } ∧
    t.linkUp a b = false ∧ t.linkUp b a = false) ∧
  (∀ (s : State) (a b : Nat), ∃ t, exec (.dieLinkUp a b) s = .next t ∧ t = { s with ctl := t.ctl } ∧
    ((a, b) ∉ s.ctl.fences → (b, a) ∉ s.ctl.fences → t.linkUp a b = true)) ∧
  (∀ s : State, ∃ t, exec .hostAttach s = .next t ∧ t = { s with ctl := { s.ctl with hostAttached := true } }) ∧
  (∀ (s : State) (fn pa n : Nat) (bs : List Byte) (w : Bool), s.ctl.hostAttached = true → s.ctl.hostUp = true →
    s.cdFailed 0 = false → s.ctl.sec.quiesced = false → s.ctl.sec.locked = false →
    hostMay s fn pa (if w then bs.length else n) = true → (if w then bs.length else n) ≠ 0 →
    (populated pa = true → populated (pa + (if w then bs.length else n) - 1) = true →
      (w = true → s.fencedMem pa = false → s.controlReaches 0 pa = true → (∀ x ∈ s.ctl.late, x.cdie ≠ some 0) →
        ∃ t, exec (.hostPortAccess fn pa w bs n) s = .next t ∧ t.mem = s.mem.writeList pa bs ∧ t.acts = s.acts) ∧
      (w = false → exec (.hostPortAccess fn pa w bs n) s = .next s)) ∧
    (populated pa = false → exec (.hostPortAccess fn pa w bs n) s = .fault (.unpopulated pa))) ∧
  (∀ (s : State) (fn pa n : Nat) (bs : List Byte) (w : Bool), hostMay s fn pa (if w then bs.length else n) = false →
    exec (.hostPortAccess fn pa w bs n) s = .next s) ∧
  (∀ (s : State) (fn pa : Nat) (bs : List Byte) (n : Nat), s.ctl.hostAttached = true → s.ctl.hostUp = true →
    s.cdFailed 0 = false → s.ctl.sec.quiesced = false → s.ctl.sec.locked = false → hostMay s fn pa bs.length = true → bs ≠ [] →
    populated pa = true → populated (pa + bs.length - 1) = true → s.fencedMem pa = false → s.controlReaches 0 pa = false →
    ∃ t x, exec (.hostPortAccess fn pa true bs n) s = .next t ∧ t = { s with ctl := t.ctl } ∧ t.ctl.late = s.ctl.late ++ [x] ∧
      x.cdie = some 0 ∧ x.pa = pa ∧ x.bytes = bs)

/-- R364 to R366: a partition with its attributes tags its tiles; one that ends leaves none; a virtual device has its context, of depth 1,
over the window of its partition. -/
def Sys2Proof.Claims.PartitionsAndDevices : Prop :=
  (∀ (s : State) (n : Nat) (p : PartSpec), n < 24 → changeTouched s ((s.part? n).map (·.spec)) (some p) = false →
    s.ctl.sec.locked = false → bellHeld s n ((s.part? n).map (·.spec)) (some p) = false → partSpecOk p = true → partsApart s n p = true →
    ∃ t q, exec (.partitionChange n (some p)) s = .next t ∧ t.part? n = some q ∧ q.spec = p ∧ t.acts = s.acts ∧ t.mem = s.mem ∧
      ∀ x : TileId, x.die < 8 → x.tile < 320 → (t.tile x).tag = if partHolds p x = true then some n
        else if (s.tile x).tag = some n then none else (s.tile x).tag) ∧
  (∀ (s : State) (n : Nat), n < 24 → changeTouched s ((s.part? n).map (·.spec)) none = false →
    s.ctl.sec.locked = false → bellHeld s n ((s.part? n).map (·.spec)) none = false → (∀ v ∈ s.sch.vdevs, v.part ≠ n) →
    ∃ t, exec (.partitionChange n none) s = .next t ∧ t.part? n = none ∧ t.acts = s.acts ∧ t.mem = s.mem ∧
      ∀ x : TileId, x.die < 8 → x.tile < 320 → (t.tile x).tag ≠ some n) ∧
  (∀ (s : State) (c n q per ring : Nat) (bs : List Byte) (vf : Option Nat) (m : W32) (p : Partition), s.part? n = some p →
    deviceOk s c p bs q per vf = true → s.ctl.sec.locked = false →
    ∃ t v, exec (.virtualDeviceCreate c n (some bs) q per vf ring m) s = .next t ∧ v ∈ t.sch.vdevs ∧ v.ctx = c ∧ v.part = n ∧
      v.quantum = q ∧ v.period = (if per = 0 then 100 else per) ∧ v.vf = vf ∧ v.traceRing = ring ∧ v.traceMask = m ∧
      (t.ctx c).depth = 1 ∧ (t.ctx c).parent = none ∧ (t.ctx c).part = n ∧
      (t.ctx c).fb = p.spec.base + (descWords bs 1).toNat % 2 ^ 48 ∧ (t.ctx c).qmask = descWords bs 3 ∧ (t.ctx c).sring = descWords bs 10 ∧
      t.acts = s.acts ∧ t.mem = s.mem)

/-- R11, R18 to R20, R364 to R366, R419, R420, R424, R427, R428: scrubs, resets, ports, links, partitions and devices. -/
def Obligations.PortsAndPartitions : Prop :=
  Claims.ScrubsFind ∧ Claims.ResetsReset ∧ Claims.PortsAndLinks ∧ Claims.PartitionsAndDevices

namespace Sys2Proof.Claims
open Sys2Proof Machine

/-! ## Fetching, decoding and the forms that every step keeps -/

/-- A1: in the next step of `s` an act fetches: it stands in `u.me`, and may run. The turn comes from the agenda, or, where that is
empty, from the focus. -/
def ActTurn (s u : State) : Prop :=
  u.cur.life = .running ∧ u.cur.leaving = false ∧
  ((s.agenda = [] ∧ s.focus = .act ∧ u = s) ∨ ∃ id rest, s.agenda = .act id :: rest ∧ u = { s with agenda := rest, me := id })

/-- A1: in the next step of `s` a management core fetches: it stands in `u.cd` and `u.ci`, and may run. -/
def CoreTurn (s u : State) : Prop :=
  u.core.held = false ∧ u.core.waiting = none ∧ (u.cdie u.cd).failed = false ∧
  u.controlReaches u.cd u.core.pc.toNat = true ∧
  ((s.agenda = [] ∧ s.focus = .core ∧ u = s) ∨
    ∃ (d : Fin 2) (k : Fin 8) (rest : List Move), s.agenda = .core d.val k.val :: rest ∧
      u = { s with agenda := rest, cd := d, ci := k })

/-- R3: the four bytes from a physical address. -/
def bytesAt (m : Mem) (pa : Nat) : List Byte := [m.read pa, m.read (pa + 1), m.read (pa + 2), m.read (pa + 3)]

end Sys2Proof.Claims

open Sys2Proof Machine Claims

/-- R3, R113, R130, R394: a step runs the instruction that the bytes at the agent's program counter decode to: an act's, fetched through
its context, or kept in the loop buffer; a core's, at its physical pc; an event of the agenda is run as it stands. Fetching changes
nothing but the translations held and the count of free values used; each meaning moves its agent past its own word. -/
def Obligations.StepRunsDecoded : Prop :=
  (∀ (s u u1 : State) (pa : Nat) (i : Instr), ActTurn s u → u.cur.asyncTrap = [] →
    (u.cur.regs.looping = false ∨ u.cur.regs.faultH = true ∨ assoc? u.cur.regs.acpc u.cur.loopBuf = none) →
    u.pageDown u.cur.ctx u.cur.regs.acpc = false →
    promptAccess u u.cur.regs.acpc 4 .fetch = (.ok pa, u1) → decodeBytes (bytesAt u.mem pa) = .ok (i, []) →
    step s = exec i u1 ∧ u1 = { u with eng := u1.eng, fresh := u1.fresh }) ∧
  (∀ (s u : State) (w : W32) (i : Instr), ActTurn s u → u.cur.asyncTrap = [] → u.cur.regs.looping = true →
    u.cur.regs.faultH = false → assoc? u.cur.regs.acpc u.cur.loopBuf = some w → decodeBytes (bytesOfWord w) = .ok (i, []) →
    step s = exec i u) ∧
  (∀ (s u : State) (b0 b1 b2 b3 : Byte) (i : Instr), CoreTurn s u → populated u.core.pc.toNat = true →
    bytesAt u.mem u.core.pc.toNat = [b0, b1, b2, b3] → decodeXalholt (wordOfBytes b0 b1 b2 b3) = .ok i → step s = exec i u) ∧
  (∀ (s : State) (i : Instr) (rest : List Move), s.agenda = .event i :: rest → step s = exec i { s with agenda := rest })

/-- R81, R115, R395, R396: a word that does not decode runs as the illegal instruction, which takes 0x01 with the word; in the custom-0
space of a management core it raises mcause 2 with the word. -/
def Sys2Proof.Claims.IllegalWords : Prop :=
  (∀ (s u u1 : State) (pa : Nat) (b0 b1 b2 b3 : Byte) (e : DecodeError), ActTurn s u → u.cur.asyncTrap = [] →
    (u.cur.regs.looping = false ∨ u.cur.regs.faultH = true ∨ assoc? u.cur.regs.acpc u.cur.loopBuf = none) →
    u.pageDown u.cur.ctx u.cur.regs.acpc = false →
    promptAccess u u.cur.regs.acpc 4 .fetch = (.ok pa, u1) → bytesAt u.mem pa = [b0, b1, b2, b3] →
    decodeBytes [b0, b1, b2, b3] = .error e →
    step s = exec (.illegalInstruction (wordOfBytes b0 b1 b2 b3)) u1) ∧
  (∀ (s u : State) (w : W32) (b0 b1 b2 b3 : Byte) (e : DecodeError), CoreTurn s u → populated u.core.pc.toNat = true →
    bytesAt u.mem u.core.pc.toNat = [b0, b1, b2, b3] → w = wordOfBytes b0 b1 b2 b3 → w.toNat % 128 = 0x0B →
    decodeXalholt w = .error e → ∃ t, step s = .next t ∧ CoreTraps u t 2 (w.setWidth 64))

/-- Words written out from the tables of R72 to R80 and R395, among them the worked encodings of the chapters, decode to what they stand
for; a reserved major, a reserved bit, an odd pair register and a loop level of 3 are refused. -/
def Sys2Proof.Claims.WordsRead : Prop :=
  decodeTableWord 32 0x00632800 = some (.add 3 3 5 false false) ∧ decodeTableWord 32 0x0480_0008 = some (.addi 4 0 8) ∧
  decodeTableWord 32 0x1CC00012 = some (.lui 6 0x12) ∧ decodeTableWord 32 0x2CA20000 = some (.ldd 5 2 0) ∧
  decodeTableWord 32 0x582407FC = some (.bNe 4 0 0x7FC) ∧ decodeTableWord 32 0x68000803 = some (.loopi 0 8 3) ∧
  decodeTableWord 32 0x74042808 = some (.cmdPack 4 5 2) ∧ decodeTableWord 32 0x98000040 = some .halt ∧
  decodeTableWord 32 0x98000020 = some .eret ∧ decodeTableWord 32 0x9D400020 = some (.mfs 10 0x20) ∧
  decodeTableWord 32 0xA00A0020 = some (.mts 10 0x20) ∧ decodeTableWord 32 0x0005850B = some (.rfetch 11 10) ∧
  decodeTableWord 32 0x0C86960B = some (.bfx 3 8 13 12) ∧ decodeTableWord 32 0x0073228B = some (.swait 7 6 5) ∧
  decodeTableWord 32 0x0005B50B = some (.disp 11 10) ∧ decodeTableWord 32 0xFFFFFFFF = none ∧
  decodeTableWord 32 0x00632801 = none ∧ decodeTableWord 32 0x54220000 = none ∧ decodeTableWord 32 0x67000100 = none

/-- R72 to R81, R395: words decode to the instructions they stand for, and words that do not decode trap. -/
def Obligations.WordsDecoded : Prop := Claims.WordsRead ∧ Claims.IllegalWords

/-- R72 to R80, R395: decoding the encoding of any well-formed instruction that has a word gives the instruction back, with every
operand at every value that its field admits. -/
def Obligations.EncodeDecode : Prop :=
  ∀ (i : Instr) (w : W32), i.wf = true → encode i = some w →
    if isXalholtInstr i then decodeXalholt w = .ok i else decodeBytes (bytesOfWord w) = .ok (i, [])

/-- R72 to R81, R395: a word that decodes is the encoding of the well-formed instruction it decodes to, so that no bit of a word is
passed over. -/
def Obligations.DecodeEncode : Prop :=
  ∀ (w : W32) (i : Instr),
    (decodeBytes (bytesOfWord w) = .ok (i, []) → i.wf = true ∧ encode i = some w) ∧
    (decodeXalholt w = .ok i → i.wf = true ∧ encode i = some w)

/-- R3, R267: every step keeps memory, and the bytes of every stream bank, in their canonical form: addresses rise, and no listed byte
is what an unlisted one reads as. -/
def Obligations.StorageCanonical : Prop := ∀ s t : State, StorageOk s → step s = .next t → StorageOk t

/-- R3, R267: the canonical form holds at reset. -/
def Obligations.StorageCanonicalAtReset : Prop := StorageOk State.reset
end

