-- ==== Sys2Proof/Laws/Lists.lean ====
section
/-! SUPPORT. Keyed lists: what a lookup finds after a change. -/
namespace Sys2Proof.Machine

theorem assoc?_assocSet_self {κ α : Type} [DecidableEq κ] (k : κ) (v : α) (l : List (κ × α)) :
    assoc? k (assocSet k v l) = some v := by
  induction l with
  | nil => simp [assocSet, assoc?]
  | cons p l ih =>
    obtain ⟨k', v'⟩ := p
    by_cases h : k' = k
    · simp [assocSet, assoc?, h]
    · simp [assocSet, assoc?, h, ih]

theorem assoc?_assocSet_ne {κ α : Type} [DecidableEq κ] {j k : κ} (h : k ≠ j) (v : α) (l : List (κ × α)) :
    assoc? j (assocSet k v l) = assoc? j l := by
  induction l with
  | nil => simp [assocSet, assoc?, h]
  | cons p l ih =>
    obtain ⟨k', v'⟩ := p
    by_cases h' : k' = k
    · have : k' ≠ j := fun e => h (h' ▸ e)
      simp [assocSet, assoc?, h', h]
    · by_cases hj : k' = j
      · subst hj; simp [assocSet, assoc?, h']
      · simp [assocSet, assoc?, h', hj, ih]

/-- What a keyed list holds after one value is set. -/
@[simp] theorem assoc?_assocSet {κ α : Type} [DecidableEq κ] (j k : κ) (v : α) (l : List (κ × α)) :
    assoc? j (assocSet k v l) = if k = j then some v else assoc? j l := by
  by_cases h : k = j
  · subst h; simp [assoc?_assocSet_self]
  · simp [h, assoc?_assocSet_ne h]

/-- What a keyed list holds after a key is deleted. -/
@[simp] theorem assoc?_assocDel {κ α : Type} [DecidableEq κ] (j k : κ) (l : List (κ × α)) :
    assoc? j (assocDel k l) = if k = j then none else assoc? j l := by
  induction l with
  | nil => simp [assocDel, assoc?]
  | cons p l ih =>
    obtain ⟨k', v'⟩ := p
    by_cases h : k' = k
    · subst h
      by_cases hj : k' = j
      · simp [assocDel, hj] at *; exact ih
      · simp [assocDel, assoc?, hj, ih]
    · by_cases hj : k' = j
      · subst hj; simp [assocDel, assoc?, h, Ne.symm h]
      · simp [assocDel, assoc?, h, hj, ih]

/-- A count after one key is set. -/
@[simp] theorem tally_assocSet {κ : Type} [DecidableEq κ] (j k : κ) (n : Nat) (l : List (κ × Nat)) :
    tally j (assocSet k n l) = if k = j then n else tally j l := by
  unfold tally; rw [assoc?_assocSet]; split <;> rfl

end Sys2Proof.Machine
end

