-- ==== Sys2Proof/Laws/Memory.lean ====
section
/-! SUPPORT. Memory: what a read finds after a write, and the canonical form, which every write keeps. -/
namespace Sys2Proof.Machine

/-- No entry lies below the bound of a canonical memory. -/
theorem Mem.read_below : ∀ (m : Mem) (lo b : Nat), Mem.wfFrom lo m = true → b < lo → Mem.read m b = 0
  | [], _, _, _, _ => rfl
  | (k, _) :: _, lo, b, h, hb => by
    simp only [Mem.wfFrom, Bool.and_eq_true, decide_eq_true_eq] at h
    have : b < k := by omega
    simp [Mem.read, this]

theorem Mem.wfFrom_mono : ∀ (m : Mem) (lo lo' : Nat), lo' ≤ lo → Mem.wfFrom lo m = true → Mem.wfFrom lo' m = true
  | [], _, _, _, _ => rfl
  | (_, _) :: _, lo, lo', h, hw => by grind [Mem.wfFrom]

theorem Mem.read_write_self_from (m : Mem) (a : Nat) (v : Byte) :
    ∀ lo, Mem.wfFrom lo m = true → Mem.read (Mem.write m a v) a = v := by
  induction m with
  | nil => grind [Mem.write, Mem.read, Mem.wfFrom]
  | cons p m ih =>
    obtain ⟨k, b⟩ := p
    intro lo h
    have := Mem.read_below m (k + 1) a
    grind [Mem.write, Mem.read, Mem.wfFrom]

theorem Mem.read_write_ne_from (m : Mem) (a b : Nat) (v : Byte) (hab : a ≠ b) :
    ∀ lo, Mem.wfFrom lo m = true → Mem.read (Mem.write m a v) b = Mem.read m b := by
  induction m with
  | nil => grind [Mem.write, Mem.read, Mem.wfFrom]
  | cons p m ih =>
    obtain ⟨k, c⟩ := p
    intro lo h
    have := Mem.read_below m (k + 1) b
    grind [Mem.write, Mem.read, Mem.wfFrom]

theorem Mem.wfFrom_write (m : Mem) (a : Nat) (v : Byte) :
    ∀ lo, lo ≤ a → Mem.wfFrom lo m = true → Mem.wfFrom lo (Mem.write m a v) = true := by
  induction m with
  | nil => grind [Mem.write, Mem.read, Mem.wfFrom]
  | cons p m ih =>
    obtain ⟨k, c⟩ := p
    intro lo h
    have := Mem.wfFrom_mono m (k + 1) lo
    grind [Mem.write, Mem.read, Mem.wfFrom]

/-- A byte just written reads as written. -/
theorem Mem.read_write_self (m : Mem) (a : Nat) (v : Byte) (h : Mem.wf m = true) :
    Mem.read (Mem.write m a v) a = v := Mem.read_write_self_from m a v 0 h

/-- A write leaves every other byte. -/
theorem Mem.read_write_ne (m : Mem) (a b : Nat) (v : Byte) (hab : a ≠ b) (h : Mem.wf m = true) :
    Mem.read (Mem.write m a v) b = Mem.read m b := Mem.read_write_ne_from m a b v hab 0 h

/-- A write of one byte keeps the canonical form. -/
theorem Mem.wf_write {m : Mem} (a : Nat) (v : Byte) (h : Mem.wf m = true) : Mem.wf (Mem.write m a v) = true :=
  Mem.wfFrom_write m a v 0 (Nat.zero_le a) h

/-- A store of `n` bytes keeps the canonical form. -/
theorem Mem.wf_writeN (n : Nat) : ∀ {m : Mem} (a v : Nat), Mem.wf m = true → Mem.wf (Mem.writeN m a n v) = true := by
  induction n with
  | zero => intro m a v h; exact h
  | succ n ih => intro m a v h; exact ih _ _ (Mem.wf_write a _ h)

/-- A store of a list of bytes keeps the canonical form. -/
theorem Mem.wf_writeList (bs : List Byte) :
    ∀ {m : Mem} (a : Nat), Mem.wf m = true → Mem.wf (Mem.writeList m a bs) = true := by
  induction bs with
  | nil => intro m a h; exact h
  | cons b bs ih => intro m a h; exact ih _ (Mem.wf_write a b h)

/-- A store of `n` bytes leaves the bytes below and above it. -/
theorem Mem.read_writeN_out (n : Nat) : ∀ {m : Mem} (a v b : Nat), Mem.wf m = true → (b < a ∨ a + n ≤ b) →
    Mem.read (Mem.writeN m a n v) b = Mem.read m b := by
  induction n with
  | zero => intro m a v b _ _; rfl
  | succ n ih =>
    intro m a v b h hb
    rw [Mem.writeN, ih _ _ _ (Mem.wf_write _ _ h) (by omega), Mem.read_write_ne _ _ _ _ (by omega) h]

/-- Byte `i` of a store of `n` bytes. -/
theorem Mem.read_writeN_in (n : Nat) : ∀ {m : Mem} (a v i : Nat), Mem.wf m = true → i < n →
    Mem.read (Mem.writeN m a n v) (a + i) = BitVec.ofNat 8 (v / 256 ^ i) := by
  induction n with
  | zero => intro m a v i _ hi; omega
  | succ n ih =>
    intro m a v i h hi
    rw [Mem.writeN]
    cases i with
    | zero =>
      simp only [Nat.add_zero]
      rw [Mem.read_writeN_out n _ _ _ (Mem.wf_write _ _ h) (by omega), Mem.read_write_self _ _ _ h,
        Nat.pow_zero, Nat.div_one]
    | succ i =>
      have := ih (m := Mem.write m a (BitVec.ofNat 8 v)) (a + 1) (v / 256) i (Mem.wf_write _ _ h) (by omega)
      rw [show a + (i + 1) = a + 1 + i by omega, this, Nat.div_div_eq_div_mul, Nat.pow_succ']

/-- A load of the bytes just stored gives them. -/
theorem Mem.readN_writeN (n : Nat) : ∀ {m : Mem} (a v : Nat), Mem.wf m = true →
    Mem.readN (Mem.writeN m a n v) a n = v % 256 ^ n := by
  induction n with
  | zero => intro m a v _; simp [Mem.readN, Nat.mod_one]
  | succ n ih =>
    intro m a v h
    have h0 := Mem.read_writeN_in (n + 1) a v 0 h (by omega)
    simp only [Nat.add_zero, Nat.pow_zero, Nat.div_one] at h0
    rw [Mem.readN, h0, Mem.writeN, ih _ _ (Mem.wf_write _ _ h), Nat.pow_succ', Nat.mod_mul]
    simp

/-- Reset memory has the canonical form. -/
theorem Mem.wf_reset : Mem.wf State.reset.mem = true := rfl

end Sys2Proof.Machine
end

