-- ==== Sys2Proof/Laws/State.lean ====
section
/-! SUPPORT. What each update of the state leaves and what it changes, field by field. -/
namespace Sys2Proof.Machine

@[simp] theorem State.updKeys_mem (s : State) (f : KeyStore → KeyStore) : (s.updKeys f).mem = s.mem := rfl
@[simp] theorem State.updKeys_cycle (s : State) (f : KeyStore → KeyStore) : (s.updKeys f).cycle = s.cycle := rfl
@[simp] theorem State.updKeys_interval (s : State) (f : KeyStore → KeyStore) : (s.updKeys f).interval = s.interval := rfl
@[simp] theorem State.updKeys_agenda (s : State) (f : KeyStore → KeyStore) : (s.updKeys f).agenda = s.agenda := rfl
@[simp] theorem State.updKeys_focus (s : State) (f : KeyStore → KeyStore) : (s.updKeys f).focus = s.focus := rfl
@[simp] theorem State.updKeys_me (s : State) (f : KeyStore → KeyStore) : (s.updKeys f).me = s.me := rfl
@[simp] theorem State.updKeys_cd (s : State) (f : KeyStore → KeyStore) : (s.updKeys f).cd = s.cd := rfl
@[simp] theorem State.updKeys_ci (s : State) (f : KeyStore → KeyStore) : (s.updKeys f).ci = s.ci := rfl
@[simp] theorem State.updKeys_fresh (s : State) (f : KeyStore → KeyStore) : (s.updKeys f).fresh = s.fresh := rfl
@[simp] theorem State.updKeys_acts (s : State) (f : KeyStore → KeyStore) : (s.updKeys f).acts = s.acts := rfl
@[simp] theorem State.updKeys_ctxs (s : State) (f : KeyStore → KeyStore) : (s.updKeys f).ctxs = s.ctxs := rfl
@[simp] theorem State.updKeys_fab (s : State) (f : KeyStore → KeyStore) : (s.updKeys f).fab = s.fab := rfl
@[simp] theorem State.updKeys_eng (s : State) (f : KeyStore → KeyStore) : (s.updKeys f).eng = s.eng := rfl
@[simp] theorem State.updKeys_sch (s : State) (f : KeyStore → KeyStore) : (s.updKeys f).sch = s.sch := rfl

@[simp] theorem State.updAct_mem (s : State) (id : Nat) (f : Act → Act) : (s.updAct id f).mem = s.mem := rfl
@[simp] theorem State.updAct_cycle (s : State) (id : Nat) (f : Act → Act) : (s.updAct id f).cycle = s.cycle := rfl
@[simp] theorem State.updAct_interval (s : State) (id : Nat) (f : Act → Act) : (s.updAct id f).interval = s.interval := rfl
@[simp] theorem State.updAct_agenda (s : State) (id : Nat) (f : Act → Act) : (s.updAct id f).agenda = s.agenda := rfl
@[simp] theorem State.updAct_focus (s : State) (id : Nat) (f : Act → Act) : (s.updAct id f).focus = s.focus := rfl
@[simp] theorem State.updAct_me (s : State) (id : Nat) (f : Act → Act) : (s.updAct id f).me = s.me := rfl
@[simp] theorem State.updAct_cd (s : State) (id : Nat) (f : Act → Act) : (s.updAct id f).cd = s.cd := rfl
@[simp] theorem State.updAct_ci (s : State) (id : Nat) (f : Act → Act) : (s.updAct id f).ci = s.ci := rfl
@[simp] theorem State.updAct_fresh (s : State) (id : Nat) (f : Act → Act) : (s.updAct id f).fresh = s.fresh := rfl
@[simp] theorem State.updAct_ctxs (s : State) (id : Nat) (f : Act → Act) : (s.updAct id f).ctxs = s.ctxs := rfl
@[simp] theorem State.updAct_fab (s : State) (id : Nat) (f : Act → Act) : (s.updAct id f).fab = s.fab := rfl
@[simp] theorem State.updAct_eng (s : State) (id : Nat) (f : Act → Act) : (s.updAct id f).eng = s.eng := rfl
@[simp] theorem State.updAct_sch (s : State) (id : Nat) (f : Act → Act) : (s.updAct id f).sch = s.sch := rfl
@[simp] theorem State.updAct_ctl (s : State) (id : Nat) (f : Act → Act) : (s.updAct id f).ctl = s.ctl := rfl

@[simp] theorem State.setAct_mem (s : State) (a : Act) : (s.setAct a).mem = s.mem := rfl
@[simp] theorem State.setAct_cycle (s : State) (a : Act) : (s.setAct a).cycle = s.cycle := rfl
@[simp] theorem State.setAct_interval (s : State) (a : Act) : (s.setAct a).interval = s.interval := rfl
@[simp] theorem State.setAct_agenda (s : State) (a : Act) : (s.setAct a).agenda = s.agenda := rfl
@[simp] theorem State.setAct_focus (s : State) (a : Act) : (s.setAct a).focus = s.focus := rfl
@[simp] theorem State.setAct_me (s : State) (a : Act) : (s.setAct a).me = s.me := rfl
@[simp] theorem State.setAct_cd (s : State) (a : Act) : (s.setAct a).cd = s.cd := rfl
@[simp] theorem State.setAct_ci (s : State) (a : Act) : (s.setAct a).ci = s.ci := rfl
@[simp] theorem State.setAct_fresh (s : State) (a : Act) : (s.setAct a).fresh = s.fresh := rfl
@[simp] theorem State.setAct_ctxs (s : State) (a : Act) : (s.setAct a).ctxs = s.ctxs := rfl
@[simp] theorem State.setAct_fab (s : State) (a : Act) : (s.setAct a).fab = s.fab := rfl
@[simp] theorem State.setAct_eng (s : State) (a : Act) : (s.setAct a).eng = s.eng := rfl
@[simp] theorem State.setAct_sch (s : State) (a : Act) : (s.setAct a).sch = s.sch := rfl
@[simp] theorem State.setAct_ctl (s : State) (a : Act) : (s.setAct a).ctl = s.ctl := rfl

@[simp] theorem State.updCur_mem (s : State) (f : Act → Act) : (s.updCur f).mem = s.mem := rfl
@[simp] theorem State.updCur_cycle (s : State) (f : Act → Act) : (s.updCur f).cycle = s.cycle := rfl
@[simp] theorem State.updCur_interval (s : State) (f : Act → Act) : (s.updCur f).interval = s.interval := rfl
@[simp] theorem State.updCur_agenda (s : State) (f : Act → Act) : (s.updCur f).agenda = s.agenda := rfl
@[simp] theorem State.updCur_focus (s : State) (f : Act → Act) : (s.updCur f).focus = s.focus := rfl
@[simp] theorem State.updCur_me (s : State) (f : Act → Act) : (s.updCur f).me = s.me := rfl
@[simp] theorem State.updCur_cd (s : State) (f : Act → Act) : (s.updCur f).cd = s.cd := rfl
@[simp] theorem State.updCur_ci (s : State) (f : Act → Act) : (s.updCur f).ci = s.ci := rfl
@[simp] theorem State.updCur_fresh (s : State) (f : Act → Act) : (s.updCur f).fresh = s.fresh := rfl
@[simp] theorem State.updCur_ctxs (s : State) (f : Act → Act) : (s.updCur f).ctxs = s.ctxs := rfl
@[simp] theorem State.updCur_fab (s : State) (f : Act → Act) : (s.updCur f).fab = s.fab := rfl
@[simp] theorem State.updCur_eng (s : State) (f : Act → Act) : (s.updCur f).eng = s.eng := rfl
@[simp] theorem State.updCur_sch (s : State) (f : Act → Act) : (s.updCur f).sch = s.sch := rfl
@[simp] theorem State.updCur_ctl (s : State) (f : Act → Act) : (s.updCur f).ctl = s.ctl := rfl

@[simp] theorem State.updCtx_mem (s : State) (id : Nat) (f : Ctx → Ctx) : (s.updCtx id f).mem = s.mem := rfl
@[simp] theorem State.updCtx_cycle (s : State) (id : Nat) (f : Ctx → Ctx) : (s.updCtx id f).cycle = s.cycle := rfl
@[simp] theorem State.updCtx_interval (s : State) (id : Nat) (f : Ctx → Ctx) : (s.updCtx id f).interval = s.interval := rfl
@[simp] theorem State.updCtx_agenda (s : State) (id : Nat) (f : Ctx → Ctx) : (s.updCtx id f).agenda = s.agenda := rfl
@[simp] theorem State.updCtx_focus (s : State) (id : Nat) (f : Ctx → Ctx) : (s.updCtx id f).focus = s.focus := rfl
@[simp] theorem State.updCtx_me (s : State) (id : Nat) (f : Ctx → Ctx) : (s.updCtx id f).me = s.me := rfl
@[simp] theorem State.updCtx_cd (s : State) (id : Nat) (f : Ctx → Ctx) : (s.updCtx id f).cd = s.cd := rfl
@[simp] theorem State.updCtx_ci (s : State) (id : Nat) (f : Ctx → Ctx) : (s.updCtx id f).ci = s.ci := rfl
@[simp] theorem State.updCtx_fresh (s : State) (id : Nat) (f : Ctx → Ctx) : (s.updCtx id f).fresh = s.fresh := rfl
@[simp] theorem State.updCtx_acts (s : State) (id : Nat) (f : Ctx → Ctx) : (s.updCtx id f).acts = s.acts := rfl
@[simp] theorem State.updCtx_fab (s : State) (id : Nat) (f : Ctx → Ctx) : (s.updCtx id f).fab = s.fab := rfl
@[simp] theorem State.updCtx_eng (s : State) (id : Nat) (f : Ctx → Ctx) : (s.updCtx id f).eng = s.eng := rfl
@[simp] theorem State.updCtx_sch (s : State) (id : Nat) (f : Ctx → Ctx) : (s.updCtx id f).sch = s.sch := rfl
@[simp] theorem State.updCtx_ctl (s : State) (id : Nat) (f : Ctx → Ctx) : (s.updCtx id f).ctl = s.ctl := rfl

@[simp] theorem State.updTile_mem (s : State) (t : TileId) (f : Tile → Tile) : (s.updTile t f).mem = s.mem := rfl
@[simp] theorem State.updTile_cycle (s : State) (t : TileId) (f : Tile → Tile) : (s.updTile t f).cycle = s.cycle := rfl
@[simp] theorem State.updTile_interval (s : State) (t : TileId) (f : Tile → Tile) : (s.updTile t f).interval = s.interval := rfl
@[simp] theorem State.updTile_agenda (s : State) (t : TileId) (f : Tile → Tile) : (s.updTile t f).agenda = s.agenda := rfl
@[simp] theorem State.updTile_focus (s : State) (t : TileId) (f : Tile → Tile) : (s.updTile t f).focus = s.focus := rfl
@[simp] theorem State.updTile_me (s : State) (t : TileId) (f : Tile → Tile) : (s.updTile t f).me = s.me := rfl
@[simp] theorem State.updTile_cd (s : State) (t : TileId) (f : Tile → Tile) : (s.updTile t f).cd = s.cd := rfl
@[simp] theorem State.updTile_ci (s : State) (t : TileId) (f : Tile → Tile) : (s.updTile t f).ci = s.ci := rfl
@[simp] theorem State.updTile_fresh (s : State) (t : TileId) (f : Tile → Tile) : (s.updTile t f).fresh = s.fresh := rfl
@[simp] theorem State.updTile_acts (s : State) (t : TileId) (f : Tile → Tile) : (s.updTile t f).acts = s.acts := rfl
@[simp] theorem State.updTile_ctxs (s : State) (t : TileId) (f : Tile → Tile) : (s.updTile t f).ctxs = s.ctxs := rfl
@[simp] theorem State.updTile_eng (s : State) (t : TileId) (f : Tile → Tile) : (s.updTile t f).eng = s.eng := rfl
@[simp] theorem State.updTile_sch (s : State) (t : TileId) (f : Tile → Tile) : (s.updTile t f).sch = s.sch := rfl
@[simp] theorem State.updTile_ctl (s : State) (t : TileId) (f : Tile → Tile) : (s.updTile t f).ctl = s.ctl := rfl

@[simp] theorem State.updQueue_mem (s : State) (q : QueueId) (f : Queue → Queue) : (s.updQueue q f).mem = s.mem := rfl
@[simp] theorem State.updQueue_cycle (s : State) (q : QueueId) (f : Queue → Queue) : (s.updQueue q f).cycle = s.cycle := rfl
@[simp] theorem State.updQueue_interval (s : State) (q : QueueId) (f : Queue → Queue) : (s.updQueue q f).interval = s.interval := rfl
@[simp] theorem State.updQueue_agenda (s : State) (q : QueueId) (f : Queue → Queue) : (s.updQueue q f).agenda = s.agenda := rfl
@[simp] theorem State.updQueue_focus (s : State) (q : QueueId) (f : Queue → Queue) : (s.updQueue q f).focus = s.focus := rfl
@[simp] theorem State.updQueue_me (s : State) (q : QueueId) (f : Queue → Queue) : (s.updQueue q f).me = s.me := rfl
@[simp] theorem State.updQueue_cd (s : State) (q : QueueId) (f : Queue → Queue) : (s.updQueue q f).cd = s.cd := rfl
@[simp] theorem State.updQueue_ci (s : State) (q : QueueId) (f : Queue → Queue) : (s.updQueue q f).ci = s.ci := rfl
@[simp] theorem State.updQueue_fresh (s : State) (q : QueueId) (f : Queue → Queue) : (s.updQueue q f).fresh = s.fresh := rfl
@[simp] theorem State.updQueue_acts (s : State) (q : QueueId) (f : Queue → Queue) : (s.updQueue q f).acts = s.acts := rfl
@[simp] theorem State.updQueue_ctxs (s : State) (q : QueueId) (f : Queue → Queue) : (s.updQueue q f).ctxs = s.ctxs := rfl
@[simp] theorem State.updQueue_fab (s : State) (q : QueueId) (f : Queue → Queue) : (s.updQueue q f).fab = s.fab := rfl
@[simp] theorem State.updQueue_sch (s : State) (q : QueueId) (f : Queue → Queue) : (s.updQueue q f).sch = s.sch := rfl
@[simp] theorem State.updQueue_ctl (s : State) (q : QueueId) (f : Queue → Queue) : (s.updQueue q f).ctl = s.ctl := rfl

@[simp] theorem State.updCDie_mem (s : State) (d : Fin 2) (f : CDie → CDie) : (s.updCDie d f).mem = s.mem := rfl
@[simp] theorem State.updCDie_cycle (s : State) (d : Fin 2) (f : CDie → CDie) : (s.updCDie d f).cycle = s.cycle := rfl
@[simp] theorem State.updCDie_interval (s : State) (d : Fin 2) (f : CDie → CDie) : (s.updCDie d f).interval = s.interval := rfl
@[simp] theorem State.updCDie_agenda (s : State) (d : Fin 2) (f : CDie → CDie) : (s.updCDie d f).agenda = s.agenda := rfl
@[simp] theorem State.updCDie_focus (s : State) (d : Fin 2) (f : CDie → CDie) : (s.updCDie d f).focus = s.focus := rfl
@[simp] theorem State.updCDie_me (s : State) (d : Fin 2) (f : CDie → CDie) : (s.updCDie d f).me = s.me := rfl
@[simp] theorem State.updCDie_cd (s : State) (d : Fin 2) (f : CDie → CDie) : (s.updCDie d f).cd = s.cd := rfl
@[simp] theorem State.updCDie_ci (s : State) (d : Fin 2) (f : CDie → CDie) : (s.updCDie d f).ci = s.ci := rfl
@[simp] theorem State.updCDie_fresh (s : State) (d : Fin 2) (f : CDie → CDie) : (s.updCDie d f).fresh = s.fresh := rfl
@[simp] theorem State.updCDie_acts (s : State) (d : Fin 2) (f : CDie → CDie) : (s.updCDie d f).acts = s.acts := rfl
@[simp] theorem State.updCDie_ctxs (s : State) (d : Fin 2) (f : CDie → CDie) : (s.updCDie d f).ctxs = s.ctxs := rfl
@[simp] theorem State.updCDie_fab (s : State) (d : Fin 2) (f : CDie → CDie) : (s.updCDie d f).fab = s.fab := rfl
@[simp] theorem State.updCDie_eng (s : State) (d : Fin 2) (f : CDie → CDie) : (s.updCDie d f).eng = s.eng := rfl
@[simp] theorem State.updCDie_sch (s : State) (d : Fin 2) (f : CDie → CDie) : (s.updCDie d f).sch = s.sch := rfl

@[simp] theorem State.updCore_mem (s : State) (d : Fin 2) (c : Fin 8) (f : Core → Core) : (s.updCore d c f).mem = s.mem := rfl
@[simp] theorem State.updCore_cycle (s : State) (d : Fin 2) (c : Fin 8) (f : Core → Core) : (s.updCore d c f).cycle = s.cycle := rfl
@[simp] theorem State.updCore_interval (s : State) (d : Fin 2) (c : Fin 8) (f : Core → Core) : (s.updCore d c f).interval = s.interval := rfl
@[simp] theorem State.updCore_agenda (s : State) (d : Fin 2) (c : Fin 8) (f : Core → Core) : (s.updCore d c f).agenda = s.agenda := rfl
@[simp] theorem State.updCore_focus (s : State) (d : Fin 2) (c : Fin 8) (f : Core → Core) : (s.updCore d c f).focus = s.focus := rfl
@[simp] theorem State.updCore_me (s : State) (d : Fin 2) (c : Fin 8) (f : Core → Core) : (s.updCore d c f).me = s.me := rfl
@[simp] theorem State.updCore_cd (s : State) (d : Fin 2) (c : Fin 8) (f : Core → Core) : (s.updCore d c f).cd = s.cd := rfl
@[simp] theorem State.updCore_ci (s : State) (d : Fin 2) (c : Fin 8) (f : Core → Core) : (s.updCore d c f).ci = s.ci := rfl
@[simp] theorem State.updCore_fresh (s : State) (d : Fin 2) (c : Fin 8) (f : Core → Core) : (s.updCore d c f).fresh = s.fresh := rfl
@[simp] theorem State.updCore_acts (s : State) (d : Fin 2) (c : Fin 8) (f : Core → Core) : (s.updCore d c f).acts = s.acts := rfl
@[simp] theorem State.updCore_ctxs (s : State) (d : Fin 2) (c : Fin 8) (f : Core → Core) : (s.updCore d c f).ctxs = s.ctxs := rfl
@[simp] theorem State.updCore_fab (s : State) (d : Fin 2) (c : Fin 8) (f : Core → Core) : (s.updCore d c f).fab = s.fab := rfl
@[simp] theorem State.updCore_eng (s : State) (d : Fin 2) (c : Fin 8) (f : Core → Core) : (s.updCore d c f).eng = s.eng := rfl
@[simp] theorem State.updCore_sch (s : State) (d : Fin 2) (c : Fin 8) (f : Core → Core) : (s.updCore d c f).sch = s.sch := rfl

@[simp] theorem State.setG_mem (s : State) (n : Reg) (v : Dbl) : (s.setG n v).mem = s.mem := rfl
@[simp] theorem State.setG_cycle (s : State) (n : Reg) (v : Dbl) : (s.setG n v).cycle = s.cycle := rfl
@[simp] theorem State.setG_interval (s : State) (n : Reg) (v : Dbl) : (s.setG n v).interval = s.interval := rfl
@[simp] theorem State.setG_agenda (s : State) (n : Reg) (v : Dbl) : (s.setG n v).agenda = s.agenda := rfl
@[simp] theorem State.setG_focus (s : State) (n : Reg) (v : Dbl) : (s.setG n v).focus = s.focus := rfl
@[simp] theorem State.setG_me (s : State) (n : Reg) (v : Dbl) : (s.setG n v).me = s.me := rfl
@[simp] theorem State.setG_cd (s : State) (n : Reg) (v : Dbl) : (s.setG n v).cd = s.cd := rfl
@[simp] theorem State.setG_ci (s : State) (n : Reg) (v : Dbl) : (s.setG n v).ci = s.ci := rfl
@[simp] theorem State.setG_fresh (s : State) (n : Reg) (v : Dbl) : (s.setG n v).fresh = s.fresh := rfl
@[simp] theorem State.setG_ctxs (s : State) (n : Reg) (v : Dbl) : (s.setG n v).ctxs = s.ctxs := rfl
@[simp] theorem State.setG_fab (s : State) (n : Reg) (v : Dbl) : (s.setG n v).fab = s.fab := rfl
@[simp] theorem State.setG_eng (s : State) (n : Reg) (v : Dbl) : (s.setG n v).eng = s.eng := rfl
@[simp] theorem State.setG_sch (s : State) (n : Reg) (v : Dbl) : (s.setG n v).sch = s.sch := rfl
@[simp] theorem State.setG_ctl (s : State) (n : Reg) (v : Dbl) : (s.setG n v).ctl = s.ctl := rfl

@[simp] theorem State.retire_mem (s : State) : (s.retire).mem = s.mem := rfl
@[simp] theorem State.retire_cycle (s : State) : (s.retire).cycle = s.cycle := rfl
@[simp] theorem State.retire_interval (s : State) : (s.retire).interval = s.interval := rfl
@[simp] theorem State.retire_agenda (s : State) : (s.retire).agenda = s.agenda := rfl
@[simp] theorem State.retire_focus (s : State) : (s.retire).focus = s.focus := rfl
@[simp] theorem State.retire_me (s : State) : (s.retire).me = s.me := rfl
@[simp] theorem State.retire_cd (s : State) : (s.retire).cd = s.cd := rfl
@[simp] theorem State.retire_ci (s : State) : (s.retire).ci = s.ci := rfl
@[simp] theorem State.retire_fresh (s : State) : (s.retire).fresh = s.fresh := rfl
@[simp] theorem State.retire_ctxs (s : State) : (s.retire).ctxs = s.ctxs := rfl
@[simp] theorem State.retire_fab (s : State) : (s.retire).fab = s.fab := rfl
@[simp] theorem State.retire_eng (s : State) : (s.retire).eng = s.eng := rfl
@[simp] theorem State.retire_sch (s : State) : (s.retire).sch = s.sch := rfl
@[simp] theorem State.retire_ctl (s : State) : (s.retire).ctl = s.ctl := rfl

@[simp] theorem State.jumpTo_mem (s : State) (t : Dbl) : (s.jumpTo t).mem = s.mem := rfl
@[simp] theorem State.jumpTo_cycle (s : State) (t : Dbl) : (s.jumpTo t).cycle = s.cycle := rfl
@[simp] theorem State.jumpTo_interval (s : State) (t : Dbl) : (s.jumpTo t).interval = s.interval := rfl
@[simp] theorem State.jumpTo_agenda (s : State) (t : Dbl) : (s.jumpTo t).agenda = s.agenda := rfl
@[simp] theorem State.jumpTo_focus (s : State) (t : Dbl) : (s.jumpTo t).focus = s.focus := rfl
@[simp] theorem State.jumpTo_me (s : State) (t : Dbl) : (s.jumpTo t).me = s.me := rfl
@[simp] theorem State.jumpTo_cd (s : State) (t : Dbl) : (s.jumpTo t).cd = s.cd := rfl
@[simp] theorem State.jumpTo_ci (s : State) (t : Dbl) : (s.jumpTo t).ci = s.ci := rfl
@[simp] theorem State.jumpTo_fresh (s : State) (t : Dbl) : (s.jumpTo t).fresh = s.fresh := rfl
@[simp] theorem State.jumpTo_ctxs (s : State) (t : Dbl) : (s.jumpTo t).ctxs = s.ctxs := rfl
@[simp] theorem State.jumpTo_fab (s : State) (t : Dbl) : (s.jumpTo t).fab = s.fab := rfl
@[simp] theorem State.jumpTo_eng (s : State) (t : Dbl) : (s.jumpTo t).eng = s.eng := rfl
@[simp] theorem State.jumpTo_sch (s : State) (t : Dbl) : (s.jumpTo t).sch = s.sch := rfl
@[simp] theorem State.jumpTo_ctl (s : State) (t : Dbl) : (s.jumpTo t).ctl = s.ctl := rfl

@[simp] theorem State.count_mem (s : State) (c n k : Nat) : (s.count c n k).mem = s.mem := rfl
@[simp] theorem State.count_cycle (s : State) (c n k : Nat) : (s.count c n k).cycle = s.cycle := rfl
@[simp] theorem State.count_interval (s : State) (c n k : Nat) : (s.count c n k).interval = s.interval := rfl
@[simp] theorem State.count_agenda (s : State) (c n k : Nat) : (s.count c n k).agenda = s.agenda := rfl
@[simp] theorem State.count_focus (s : State) (c n k : Nat) : (s.count c n k).focus = s.focus := rfl
@[simp] theorem State.count_me (s : State) (c n k : Nat) : (s.count c n k).me = s.me := rfl
@[simp] theorem State.count_cd (s : State) (c n k : Nat) : (s.count c n k).cd = s.cd := rfl
@[simp] theorem State.count_ci (s : State) (c n k : Nat) : (s.count c n k).ci = s.ci := rfl
@[simp] theorem State.count_fresh (s : State) (c n k : Nat) : (s.count c n k).fresh = s.fresh := rfl
@[simp] theorem State.count_acts (s : State) (c n k : Nat) : (s.count c n k).acts = s.acts := rfl
@[simp] theorem State.count_fab (s : State) (c n k : Nat) : (s.count c n k).fab = s.fab := rfl
@[simp] theorem State.count_eng (s : State) (c n k : Nat) : (s.count c n k).eng = s.eng := rfl
@[simp] theorem State.count_sch (s : State) (c n k : Nat) : (s.count c n k).sch = s.sch := rfl
@[simp] theorem State.count_ctl (s : State) (c n k : Nat) : (s.count c n k).ctl = s.ctl := rfl

@[simp] theorem State.countPart_mem (s : State) (p n k : Nat) : (s.countPart p n k).mem = s.mem := rfl
@[simp] theorem State.countPart_cycle (s : State) (p n k : Nat) : (s.countPart p n k).cycle = s.cycle := rfl
@[simp] theorem State.countPart_interval (s : State) (p n k : Nat) : (s.countPart p n k).interval = s.interval := rfl
@[simp] theorem State.countPart_agenda (s : State) (p n k : Nat) : (s.countPart p n k).agenda = s.agenda := rfl
@[simp] theorem State.countPart_focus (s : State) (p n k : Nat) : (s.countPart p n k).focus = s.focus := rfl
@[simp] theorem State.countPart_me (s : State) (p n k : Nat) : (s.countPart p n k).me = s.me := rfl
@[simp] theorem State.countPart_cd (s : State) (p n k : Nat) : (s.countPart p n k).cd = s.cd := rfl
@[simp] theorem State.countPart_ci (s : State) (p n k : Nat) : (s.countPart p n k).ci = s.ci := rfl
@[simp] theorem State.countPart_fresh (s : State) (p n k : Nat) : (s.countPart p n k).fresh = s.fresh := rfl
@[simp] theorem State.countPart_acts (s : State) (p n k : Nat) : (s.countPart p n k).acts = s.acts := rfl
@[simp] theorem State.countPart_ctxs (s : State) (p n k : Nat) : (s.countPart p n k).ctxs = s.ctxs := rfl
@[simp] theorem State.countPart_fab (s : State) (p n k : Nat) : (s.countPart p n k).fab = s.fab := rfl
@[simp] theorem State.countPart_eng (s : State) (p n k : Nat) : (s.countPart p n k).eng = s.eng := rfl
@[simp] theorem State.countPart_ctl (s : State) (p n k : Nat) : (s.countPart p n k).ctl = s.ctl := rfl

@[simp] theorem State.countPkg_mem (s : State) (k n : Nat) : (s.countPkg k n).mem = s.mem := rfl
@[simp] theorem State.countPkg_cycle (s : State) (k n : Nat) : (s.countPkg k n).cycle = s.cycle := rfl
@[simp] theorem State.countPkg_interval (s : State) (k n : Nat) : (s.countPkg k n).interval = s.interval := rfl
@[simp] theorem State.countPkg_agenda (s : State) (k n : Nat) : (s.countPkg k n).agenda = s.agenda := rfl
@[simp] theorem State.countPkg_focus (s : State) (k n : Nat) : (s.countPkg k n).focus = s.focus := rfl
@[simp] theorem State.countPkg_me (s : State) (k n : Nat) : (s.countPkg k n).me = s.me := rfl
@[simp] theorem State.countPkg_cd (s : State) (k n : Nat) : (s.countPkg k n).cd = s.cd := rfl
@[simp] theorem State.countPkg_ci (s : State) (k n : Nat) : (s.countPkg k n).ci = s.ci := rfl
@[simp] theorem State.countPkg_fresh (s : State) (k n : Nat) : (s.countPkg k n).fresh = s.fresh := rfl
@[simp] theorem State.countPkg_acts (s : State) (k n : Nat) : (s.countPkg k n).acts = s.acts := rfl
@[simp] theorem State.countPkg_ctxs (s : State) (k n : Nat) : (s.countPkg k n).ctxs = s.ctxs := rfl
@[simp] theorem State.countPkg_fab (s : State) (k n : Nat) : (s.countPkg k n).fab = s.fab := rfl
@[simp] theorem State.countPkg_eng (s : State) (k n : Nat) : (s.countPkg k n).eng = s.eng := rfl
@[simp] theorem State.countPkg_sch (s : State) (k n : Nat) : (s.countPkg k n).sch = s.sch := rfl

@[simp] theorem State.updTask_mem (s : State) (c n : Nat) (f : Task → Task) : (s.updTask c n f).mem = s.mem := rfl
@[simp] theorem State.updTask_cycle (s : State) (c n : Nat) (f : Task → Task) : (s.updTask c n f).cycle = s.cycle := rfl
@[simp] theorem State.updTask_interval (s : State) (c n : Nat) (f : Task → Task) : (s.updTask c n f).interval = s.interval := rfl
@[simp] theorem State.updTask_agenda (s : State) (c n : Nat) (f : Task → Task) : (s.updTask c n f).agenda = s.agenda := rfl
@[simp] theorem State.updTask_focus (s : State) (c n : Nat) (f : Task → Task) : (s.updTask c n f).focus = s.focus := rfl
@[simp] theorem State.updTask_me (s : State) (c n : Nat) (f : Task → Task) : (s.updTask c n f).me = s.me := rfl
@[simp] theorem State.updTask_cd (s : State) (c n : Nat) (f : Task → Task) : (s.updTask c n f).cd = s.cd := rfl
@[simp] theorem State.updTask_ci (s : State) (c n : Nat) (f : Task → Task) : (s.updTask c n f).ci = s.ci := rfl
@[simp] theorem State.updTask_fresh (s : State) (c n : Nat) (f : Task → Task) : (s.updTask c n f).fresh = s.fresh := rfl
@[simp] theorem State.updTask_acts (s : State) (c n : Nat) (f : Task → Task) : (s.updTask c n f).acts = s.acts := rfl
@[simp] theorem State.updTask_fab (s : State) (c n : Nat) (f : Task → Task) : (s.updTask c n f).fab = s.fab := rfl
@[simp] theorem State.updTask_eng (s : State) (c n : Nat) (f : Task → Task) : (s.updTask c n f).eng = s.eng := rfl
@[simp] theorem State.updTask_sch (s : State) (c n : Nat) (f : Task → Task) : (s.updTask c n f).sch = s.sch := rfl
@[simp] theorem State.updTask_ctl (s : State) (c n : Nat) (f : Task → Task) : (s.updTask c n f).ctl = s.ctl := rfl

@[simp] theorem State.updPart_mem (s : State) (p : Nat) (f : Partition → Partition) : (s.updPart p f).mem = s.mem := rfl
@[simp] theorem State.updPart_cycle (s : State) (p : Nat) (f : Partition → Partition) : (s.updPart p f).cycle = s.cycle := rfl
@[simp] theorem State.updPart_interval (s : State) (p : Nat) (f : Partition → Partition) : (s.updPart p f).interval = s.interval := rfl
@[simp] theorem State.updPart_agenda (s : State) (p : Nat) (f : Partition → Partition) : (s.updPart p f).agenda = s.agenda := rfl
@[simp] theorem State.updPart_focus (s : State) (p : Nat) (f : Partition → Partition) : (s.updPart p f).focus = s.focus := rfl
@[simp] theorem State.updPart_me (s : State) (p : Nat) (f : Partition → Partition) : (s.updPart p f).me = s.me := rfl
@[simp] theorem State.updPart_cd (s : State) (p : Nat) (f : Partition → Partition) : (s.updPart p f).cd = s.cd := rfl
@[simp] theorem State.updPart_ci (s : State) (p : Nat) (f : Partition → Partition) : (s.updPart p f).ci = s.ci := rfl
@[simp] theorem State.updPart_fresh (s : State) (p : Nat) (f : Partition → Partition) : (s.updPart p f).fresh = s.fresh := rfl
@[simp] theorem State.updPart_acts (s : State) (p : Nat) (f : Partition → Partition) : (s.updPart p f).acts = s.acts := rfl
@[simp] theorem State.updPart_ctxs (s : State) (p : Nat) (f : Partition → Partition) : (s.updPart p f).ctxs = s.ctxs := rfl
@[simp] theorem State.updPart_fab (s : State) (p : Nat) (f : Partition → Partition) : (s.updPart p f).fab = s.fab := rfl
@[simp] theorem State.updPart_eng (s : State) (p : Nat) (f : Partition → Partition) : (s.updPart p f).eng = s.eng := rfl
@[simp] theorem State.updPart_ctl (s : State) (p : Nat) (f : Partition → Partition) : (s.updPart p f).ctl = s.ctl := rfl

@[simp] theorem State.updVdev_mem (s : State) (c : Nat) (f : VDev → VDev) : (s.updVdev c f).mem = s.mem := rfl
@[simp] theorem State.updVdev_cycle (s : State) (c : Nat) (f : VDev → VDev) : (s.updVdev c f).cycle = s.cycle := rfl
@[simp] theorem State.updVdev_interval (s : State) (c : Nat) (f : VDev → VDev) : (s.updVdev c f).interval = s.interval := rfl
@[simp] theorem State.updVdev_agenda (s : State) (c : Nat) (f : VDev → VDev) : (s.updVdev c f).agenda = s.agenda := rfl
@[simp] theorem State.updVdev_focus (s : State) (c : Nat) (f : VDev → VDev) : (s.updVdev c f).focus = s.focus := rfl
@[simp] theorem State.updVdev_me (s : State) (c : Nat) (f : VDev → VDev) : (s.updVdev c f).me = s.me := rfl
@[simp] theorem State.updVdev_cd (s : State) (c : Nat) (f : VDev → VDev) : (s.updVdev c f).cd = s.cd := rfl
@[simp] theorem State.updVdev_ci (s : State) (c : Nat) (f : VDev → VDev) : (s.updVdev c f).ci = s.ci := rfl
@[simp] theorem State.updVdev_fresh (s : State) (c : Nat) (f : VDev → VDev) : (s.updVdev c f).fresh = s.fresh := rfl
@[simp] theorem State.updVdev_acts (s : State) (c : Nat) (f : VDev → VDev) : (s.updVdev c f).acts = s.acts := rfl
@[simp] theorem State.updVdev_ctxs (s : State) (c : Nat) (f : VDev → VDev) : (s.updVdev c f).ctxs = s.ctxs := rfl
@[simp] theorem State.updVdev_fab (s : State) (c : Nat) (f : VDev → VDev) : (s.updVdev c f).fab = s.fab := rfl
@[simp] theorem State.updVdev_eng (s : State) (c : Nat) (f : VDev → VDev) : (s.updVdev c f).eng = s.eng := rfl
@[simp] theorem State.updVdev_ctl (s : State) (c : Nat) (f : VDev → VDev) : (s.updVdev c f).ctl = s.ctl := rfl

@[simp] theorem State.setEvent_mem (s : State) (c e : Nat) : (s.setEvent c e).mem = s.mem := rfl
@[simp] theorem State.setEvent_cycle (s : State) (c e : Nat) : (s.setEvent c e).cycle = s.cycle := rfl
@[simp] theorem State.setEvent_interval (s : State) (c e : Nat) : (s.setEvent c e).interval = s.interval := rfl
@[simp] theorem State.setEvent_agenda (s : State) (c e : Nat) : (s.setEvent c e).agenda = s.agenda := rfl
@[simp] theorem State.setEvent_focus (s : State) (c e : Nat) : (s.setEvent c e).focus = s.focus := rfl
@[simp] theorem State.setEvent_me (s : State) (c e : Nat) : (s.setEvent c e).me = s.me := rfl
@[simp] theorem State.setEvent_cd (s : State) (c e : Nat) : (s.setEvent c e).cd = s.cd := rfl
@[simp] theorem State.setEvent_ci (s : State) (c e : Nat) : (s.setEvent c e).ci = s.ci := rfl
@[simp] theorem State.setEvent_fresh (s : State) (c e : Nat) : (s.setEvent c e).fresh = s.fresh := rfl
@[simp] theorem State.setEvent_acts (s : State) (c e : Nat) : (s.setEvent c e).acts = s.acts := rfl
@[simp] theorem State.setEvent_fab (s : State) (c e : Nat) : (s.setEvent c e).fab = s.fab := rfl
@[simp] theorem State.setEvent_eng (s : State) (c e : Nat) : (s.setEvent c e).eng = s.eng := rfl
@[simp] theorem State.setEvent_sch (s : State) (c e : Nat) : (s.setEvent c e).sch = s.sch := rfl
@[simp] theorem State.setEvent_ctl (s : State) (c e : Nat) : (s.setEvent c e).ctl = s.ctl := rfl

@[simp] theorem State.signal_mem (s : State) (n : Nat) : (s.signal n).mem = s.mem := rfl
@[simp] theorem State.signal_cycle (s : State) (n : Nat) : (s.signal n).cycle = s.cycle := rfl
@[simp] theorem State.signal_interval (s : State) (n : Nat) : (s.signal n).interval = s.interval := rfl
@[simp] theorem State.signal_agenda (s : State) (n : Nat) : (s.signal n).agenda = s.agenda := rfl
@[simp] theorem State.signal_focus (s : State) (n : Nat) : (s.signal n).focus = s.focus := rfl
@[simp] theorem State.signal_me (s : State) (n : Nat) : (s.signal n).me = s.me := rfl
@[simp] theorem State.signal_cd (s : State) (n : Nat) : (s.signal n).cd = s.cd := rfl
@[simp] theorem State.signal_ci (s : State) (n : Nat) : (s.signal n).ci = s.ci := rfl
@[simp] theorem State.signal_fresh (s : State) (n : Nat) : (s.signal n).fresh = s.fresh := rfl
@[simp] theorem State.signal_acts (s : State) (n : Nat) : (s.signal n).acts = s.acts := rfl
@[simp] theorem State.signal_ctxs (s : State) (n : Nat) : (s.signal n).ctxs = s.ctxs := rfl
@[simp] theorem State.signal_fab (s : State) (n : Nat) : (s.signal n).fab = s.fab := rfl
@[simp] theorem State.signal_eng (s : State) (n : Nat) : (s.signal n).eng = s.eng := rfl
@[simp] theorem State.signal_sch (s : State) (n : Nat) : (s.signal n).sch = s.sch := rfl

/-- An act after one act is changed. -/
@[simp] theorem State.act_updAct (s : State) (i j : Nat) (f : Act → Act) :
    (s.updAct i f).act j = if i = j then f (s.act j) else s.act j := by
  by_cases h : i = j
  · subst h; simp [State.updAct, State.act]
  · simp [State.updAct, State.act, h]

@[simp] theorem State.act_setAct (s : State) (a : Act) (j : Nat) :
    (s.setAct a).act j = if a.id = j then a else s.act j := by
  by_cases h : a.id = j <;> simp [State.setAct, State.act, h]

@[simp] theorem State.cur_updCur (s : State) (f : Act → Act) : (s.updCur f).cur = f s.cur := by
  simp [State.updCur, State.cur]

theorem State.act_updCur_ne (s : State) (f : Act → Act) {j : Nat} (h : s.me ≠ j) : (s.updCur f).act j = s.act j := by
  simp [State.updCur, h]

/-- A context after one context is changed. -/
@[simp] theorem State.ctx_updCtx (s : State) (i j : Nat) (f : Ctx → Ctx) :
    (s.updCtx i f).ctx j = if i = j then f (s.ctx j) else s.ctx j := by
  by_cases h : i = j
  · subst h; simp [State.updCtx, State.ctx]
  · simp [State.updCtx, State.ctx, h]

@[simp] theorem State.ctx_updAct (s : State) (i j : Nat) (f : Act → Act) : (s.updAct i f).ctx j = s.ctx j := rfl
@[simp] theorem State.ctx_updCur (s : State) (j : Nat) (f : Act → Act) : (s.updCur f).ctx j = s.ctx j := rfl
@[simp] theorem State.act_updCtx (s : State) (i j : Nat) (f : Ctx → Ctx) : (s.updCtx i f).act j = s.act j := rfl
@[simp] theorem State.cur_updCtx (s : State) (i : Nat) (f : Ctx → Ctx) : (s.updCtx i f).cur = s.cur := rfl
@[simp] theorem State.queue_updCur (s : State) (q : QueueId) (f : Act → Act) : (s.updCur f).queue q = s.queue q := rfl
@[simp] theorem State.tile_updCur (s : State) (t : TileId) (f : Act → Act) : (s.updCur f).tile t = s.tile t := rfl

/-- A tile after one tile is changed. -/
@[simp] theorem State.tile_updTile (s : State) (i j : TileId) (f : Tile → Tile) :
    (s.updTile i f).tile j = if i = j then f (s.tile j) else s.tile j := by
  by_cases h : i = j
  · subst h; simp [State.updTile, State.tile]
  · simp [State.updTile, State.tile, h]

/-- A queue after one queue is changed. -/
@[simp] theorem State.queue_updQueue (s : State) (i j : QueueId) (f : Queue → Queue) :
    (s.updQueue i f).queue j = if i = j then f (s.queue j) else s.queue j := by
  by_cases h : i = j
  · subst h; simp [State.updQueue, State.queue]
  · simp [State.updQueue, State.queue, h]

/-- A management core after one core is changed. -/
@[simp] theorem State.mcore_updCore (s : State) (d : Fin 2) (c : Fin 8) (f : Core → Core) :
    (s.updCore d c f).mcore d c = f (s.mcore d c) := by
  simp [State.updCore, State.updCDie, State.mcore, State.cdie]

/-! ## Registers -/

/-- What a general register reads as after one is written: g0 reads as zero. -/
theorem Regs.readG_writeG (r : Regs) (m n : Reg) (v : Dbl) :
    (r.writeG n v).readG m = if m = 0 then 0 else if m = n then v else r.readG m := by
  unfold Regs.readG Regs.writeG
  have h : m ≠ n → n.toNat ≠ m.toNat := fun h e => h (BitVec.eq_of_toNat_eq e.symm)
  split
  · rfl
  · split
    · rename_i hm hn
      have : ¬m = n := fun e => hm (e.trans hn)
      simp [this]
    · split
      · subst_vars; simp
      · rename_i _ _ hmn
        simp [h hmn]

theorem State.g_setG (s : State) (m n : Reg) (v : Dbl) :
    (s.setG n v).g m = if m = 0 then 0 else if m = n then v else s.g m := by
  simp [State.setG, State.g, Act.updRegs, Regs.readG_writeG]

/-- The general registers are not changed by the step past an instruction. -/
@[simp] theorem loopTest_g (n : Nat) : ∀ (pc : Dbl) (r : Regs), (loopTest n pc r).g = r.g := by
  induction n with
  | zero => intro pc r; rfl
  | succ n ih =>
    intro pc r
    unfold loopTest
    split
    · rfl
    · split
      · rfl
      · rw [ih]; rfl

@[simp] theorem Regs.advance_g (r : Regs) : r.advance.g = r.g := by
  unfold Regs.advance; split <;> simp

@[simp] theorem leaveLoops_g (r : Regs) (t : Dbl) : (leaveLoops r t).g = r.g := by
  unfold leaveLoops
  suffices ∀ (l : List Lvl) (r : Regs), (l.foldl (fun r k => if r.inBody k t then r else r.endLoop k) r).g = r.g from this _ r
  intro l
  induction l with
  | nil => intro r; rfl
  | cons k l ih => intro r; rw [List.foldl_cons, ih]; split <;> rfl

@[simp] theorem Regs.jump_g (r : Regs) (t : Dbl) : (r.jump t).g = r.g := by
  unfold Regs.jump; split <;> simp

@[simp] theorem Act.advance_regs (a : Act) : a.advance.regs = a.regs.advance := by
  unfold Act.advance Act.trimLoops; split <;> rfl

@[simp] theorem Act.jump_regs (a : Act) (t : Dbl) : (a.jump t).regs = a.regs.jump t := by
  unfold Act.jump Act.trimLoops; split <;> rfl

/-- The end test changes the ACPC and the loop state only. -/
theorem loopTest_only (n : Nat) : ∀ (pc : Dbl) (r : Regs),
    loopTest n pc r = { r with acpc := (loopTest n pc r).acpc, lb := (loopTest n pc r).lb, lc := (loopTest n pc r).lc } := by
  induction n with
  | zero => intro pc r; rfl
  | succ n ih =>
    intro pc r
    unfold loopTest
    split
    · rfl
    · split
      · rfl
      · rw [ih]; rfl

/-- The step past an instruction changes the ACPC and the loop state only. -/
theorem Regs.advance_only (r : Regs) :
    r.advance = { r with acpc := r.advance.acpc, lb := r.advance.lb, lc := r.advance.lc } := by
  unfold Regs.advance
  split
  · rfl
  · exact loopTest_only 3 _ _

/-- With no loop active, or with the loops suspended, the ACPC moves by 4 and nothing else changes. -/
theorem Regs.advance_plain (r : Regs) (h : r.faultH = true ∨ r.looping = false) :
    r.advance = { r with acpc := r.acpc + 4 } := by
  unfold Regs.advance
  split
  · rfl
  · rename_i hf
    have : r.activeLevels = [] := by
      rcases h with h | h
      · exact absurd h hf
      · simpa [Regs.looping] using h
    simp [loopTest, this, Regs.innermost, argMin]

theorem leaveLoops_only (r : Regs) (t : Dbl) : leaveLoops r t = { r with lb := (leaveLoops r t).lb } := by
  unfold leaveLoops
  suffices ∀ (l : List Lvl) (r : Regs), l.foldl (fun r k => if r.inBody k t then r else r.endLoop k) r =
      { r with lb := (l.foldl (fun r k => if r.inBody k t then r else r.endLoop k) r).lb } from this _ r
  intro l
  induction l with
  | nil => intro r; rfl
  | cons k l ih => intro r; rw [List.foldl_cons, ih]; split <;> rfl

/-- A taken branch changes the ACPC, to its target, and which loops are active. -/
theorem Regs.jump_only (r : Regs) (t : Dbl) : r.jump t = { r with acpc := t, lb := (r.jump t).lb } := by
  unfold Regs.jump
  split
  · rfl
  · rw [leaveLoops_only]

/-- A taken branch outside every loop changes the ACPC only. -/
theorem Regs.jump_plain (r : Regs) (t : Dbl) (h : r.faultH = true ∨ r.looping = false) : r.jump t = { r with acpc := t } := by
  unfold Regs.jump
  split
  · rfl
  · rename_i hf
    have : r.activeLevels = [] := by
      rcases h with h | h
      · exact absurd h hf
      · simpa [Regs.looping] using h
    simp [leaveLoops, this]

theorem Act.trimLoops_only (a : Act) : a.trimLoops = { a with loopBuf := a.trimLoops.loopBuf } := by
  unfold Act.trimLoops; split <;> rfl

/-- The act past an instruction: its registers past it, and its loop buffer. -/
theorem Act.advance_only (a : Act) : a.advance = { a with regs := a.regs.advance, loopBuf := a.advance.loopBuf } := by
  unfold Act.advance
  exact Act.trimLoops_only _

/-- The act at the target of its jump. -/
theorem Act.jump_only (a : Act) (t : Dbl) : a.jump t = { a with regs := a.regs.jump t, loopBuf := (a.jump t).loopBuf } := by
  unfold Act.jump
  exact Act.trimLoops_only _

@[simp] theorem State.g_retire (s : State) (n : Reg) : s.retire.g n = s.g n := by
  simp [State.retire, State.g, Regs.readG]

@[simp] theorem State.g_jumpTo (s : State) (t : Dbl) (n : Reg) : (s.jumpTo t).g n = s.g n := by
  simp [State.jumpTo, State.g, Regs.readG]

end Sys2Proof.Machine
end

