-- ==== Sys2Proof/Laws/Traps.lean ====
section
/-! SUPPORT. What stores, rings, trace records and reflection leave: the act contexts, and what taking a trap does
(R115, R362, R363, R434). -/
namespace Sys2Proof.Machine

@[simp] theorem State.clearPoison_acts (s : State) (pa n : Nat) : (s.clearPoison pa n).acts = s.acts := by
  unfold State.clearPoison; split <;> rfl
@[simp] theorem State.clearPoison_ctxs (s : State) (pa n : Nat) : (s.clearPoison pa n).ctxs = s.ctxs := by
  unfold State.clearPoison; split <;> rfl
@[simp] theorem State.clearPoison_mem (s : State) (pa n : Nat) : (s.clearPoison pa n).mem = s.mem := by
  unfold State.clearPoison; split <;> rfl
@[simp] theorem State.clearPoison_me (s : State) (pa n : Nat) : (s.clearPoison pa n).me = s.me := by
  unfold State.clearPoison; split <;> rfl
@[simp] theorem State.doorbell_acts (s : State) (pa n : Nat) : (s.doorbell pa n).acts = s.acts := by
  unfold State.doorbell; split <;> rfl
@[simp] theorem State.doorbell_ctxs (s : State) (pa n : Nat) : (s.doorbell pa n).ctxs = s.ctxs := by
  unfold State.doorbell; split <;> rfl
@[simp] theorem State.doorbell_mem (s : State) (pa n : Nat) : (s.doorbell pa n).mem = s.mem := by
  unfold State.doorbell; split <;> rfl
@[simp] theorem State.doorbell_me (s : State) (pa n : Nat) : (s.doorbell pa n).me = s.me := by
  unfold State.doorbell; split <;> rfl

/-- A store changes memory at its bytes, and no act, context or register. -/
@[simp] theorem State.store_mem (s : State) (pa n v : Nat) : (s.store pa n v).mem = s.mem.writeN pa n v := by
  simp [State.store]
@[simp] theorem State.store_acts (s : State) (pa n v : Nat) : (s.store pa n v).acts = s.acts := by simp [State.store]
@[simp] theorem State.store_ctxs (s : State) (pa n v : Nat) : (s.store pa n v).ctxs = s.ctxs := by simp [State.store]
@[simp] theorem State.store_me (s : State) (pa n v : Nat) : (s.store pa n v).me = s.me := by simp [State.store]
@[simp] theorem State.storeList_mem (s : State) (pa : Nat) (bs : List Byte) :
    (s.storeList pa bs).mem = s.mem.writeList pa bs := by simp [State.storeList]
@[simp] theorem State.storeList_acts (s : State) (pa : Nat) (bs : List Byte) : (s.storeList pa bs).acts = s.acts := by
  simp [State.storeList]
@[simp] theorem State.storeList_ctxs (s : State) (pa : Nat) (bs : List Byte) : (s.storeList pa bs).ctxs = s.ctxs := by
  simp [State.storeList]
@[simp] theorem State.storeList_me (s : State) (pa : Nat) (bs : List Byte) : (s.storeList pa bs).me = s.me := by
  simp [State.storeList]

theorem State.act_congr {s t : State} (h : t.acts = s.acts) (id : Nat) : t.act id = s.act id := by
  simp [State.act, h]

/-- What a record put into a ring leaves. -/
theorem ringPut_acts {s t : State} {d : Nat} {w : Dbl → Option Nat} {l : Nat} {bs : List Byte}
    (h : ringPut s d w l bs = some t) : t.acts = s.acts ∧ t.ctxs = s.ctxs ∧ t.me = s.me := by
  simp only [ringPut] at h
  split at h
  · split at h
    · cases h
    · cases h; simp
  · cases h

theorem ringPutPhys_acts {s t : State} {d l : Nat} {bs : List Byte}
    (h : ringPutPhys s d l bs = some t) : t.acts = s.acts ∧ t.ctxs = s.ctxs ∧ t.me = s.me := by
  unfold ringPutPhys at h
  split at h
  · cases h
  · exact ringPut_acts h

theorem ringPutCtx_acts {s t : State} {c l : Nat} {d : Dbl} {bs : List Byte}
    (h : ringPutCtx s c d l bs = some t) : t.acts = s.acts ∧ t.ctxs = s.ctxs ∧ t.me = s.me := by
  unfold ringPutCtx at h
  split at h
  · split at h
    · cases h
    · exact ringPut_acts h
  · cases h

theorem tracePut_acts (s : State) (r l : Nat) (x y : List Byte) :
    (tracePut s r l x y).1.acts = s.acts ∧ (tracePut s r l x y).1.ctxs = s.ctxs ∧ (tracePut s r l x y).1.me = s.me := by
  unfold tracePut
  split
  · split
    · rename_i h; exact ringPutPhys_acts h
    · exact ⟨rfl, rfl, rfl⟩
  · split
    · exact ⟨rfl, rfl, rfl⟩
    · rename_i h1
      split
      · exact ⟨rfl, rfl, rfl⟩
      · rename_i h2
        have a := ringPutPhys_acts h1
        have b := ringPutPhys_acts h2
        exact ⟨b.1.trans a.1, b.2.1.trans a.2.1, b.2.2.trans a.2.2⟩

/-- A trace record changes no act and no context. -/
theorem State.trace_acts (s : State) (t c d a x y : Nat) :
    (s.trace t c d a x y).acts = s.acts ∧ (s.trace t c d a x y).ctxs = s.ctxs ∧ (s.trace t c d a x y).me = s.me := by
  unfold State.trace
  split
  · exact ⟨rfl, rfl, rfl⟩
  · split
    · exact ⟨rfl, rfl, rfl⟩
    · exact tracePut_acts ..

theorem State.putReflection_acts (s : State) (c : Nat) (bs : List Byte) :
    (s.putReflection c bs).acts = s.acts ∧ (s.putReflection c bs).me = s.me := by
  simp only [State.putReflection]
  split
  · exact ⟨rfl, rfl⟩
  · split
    · rename_i h; have := ringPutCtx_acts h; exact ⟨this.1, this.2.2⟩
    · exact ⟨rfl, rfl⟩

theorem State.putHypervisor_acts (s : State) (c : Nat) (bs : List Byte) :
    (s.putHypervisor c bs).acts = s.acts ∧ (s.putHypervisor c bs).me = s.me := by
  unfold State.putHypervisor
  split
  · exact ⟨rfl, rfl⟩
  · split
    · exact ⟨rfl, rfl⟩
    · split
      · rename_i h; have := ringPutPhys_acts h; exact ⟨this.1, this.2.2⟩
      · exact ⟨rfl, rfl⟩

/-- R362: reflection changes no act. -/
theorem State.reflect_acts (s : State) (c : Nat) (code : Byte) (id : Nat) (pc arg : Dbl) :
    (s.reflect c code id pc arg).acts = s.acts ∧ (s.reflect c code id pc arg).me = s.me := by
  unfold State.reflect
  simp only []
  split
  · exact State.putReflection_acts ..
  · exact State.putHypervisor_acts ..

/-- R115: a trap changes no act but the one that takes it. -/
theorem State.trapAt_act_ne (s : State) (id : Nat) (pc : Dbl) (code : Byte) (arg : Dbl) {j : Nat} (h : j ≠ id) :
    (s.trapAt id pc code arg).act j = s.act j := by
  simp only [State.trapAt, State.traceAct]
  split
  · simp [Ne.symm h, State.act_congr (State.trace_acts _ _ _ _ _ _ _).1]
  · rw [State.act_congr (State.reflect_acts _ _ _ _ _ _).1]
    simp [Ne.symm h, State.act_congr (State.trace_acts _ _ _ _ _ _ _).1]

/-- R115: the act after its trap: in its handler where its context claims the code and H is 0, and otherwise stopped. -/
theorem State.trapAt_act (s : State) (id : Nat) (pc : Dbl) (code : Byte) (arg : Dbl) :
    ∃ c, (s.trapAt id pc code arg).act id =
      (if (s.ctx (s.act id).ctx).tmask.getLsbD code.toNat && !(s.act id).regs.faultH then
        { s.act id with
          seqw := none, evtw := none, fenceS := none, wingStall := false
          regs := { (s.act id).regs with
            faultPc := pc, faultCode := code, faultArg := arg, faultH := true, acpc := (s.ctx (s.act id).ctx).tvec } }
      else
        { s.act id with
          seqw := none, evtw := none, fenceS := none, wingStall := false, life := .trapped c
          regs := { (s.act id).regs with faultPc := pc, faultCode := code, faultArg := arg } }) := by
  simp only [State.trapAt, State.traceAct]
  split
  · refine ⟨none, ?_⟩
    simp [State.act_congr (State.trace_acts _ _ _ _ _ _ _).1, Act.updRegs]
  · apply Exists.intro
    rw [State.act_congr (State.reflect_acts _ _ _ _ _ _).1]
    simp [State.act_congr (State.trace_acts _ _ _ _ _ _ _).1]
    rfl

end Sys2Proof.Machine
end

