-- ==== Sys2Proof/Tests/Slice0.lean ====
section
/-! SUPPORT. Tests: small states, a witness for the hypotheses of every statement, words written out from the
encoding rules, ill-formed terms that the well-formedness check refuses, and results that the spec works out. -/
namespace Sys2Proof.Tests
open Sys2Proof Machine Claims
set_option Elab.async false

/-! ## Small states -/

/-- The loader's act and context, with one page at physical 0x6000 for virtual address 0. -/
def at0 : State := State.reset.withFetchWord 32 0

/-- `at0` with its act changed. -/
def actIs (f : Act → Act) : State := at0.updAct 0 f

/-- `at0` with the registers of its act changed. -/
def regsAre (f : Regs → Regs) : State := actIs fun a => { a with regs := f a.regs }

/-- `at0` with g1 and g2 as given. -/
def with12 (x y : Dbl) : State := regsAre fun r => (r.writeG 1 x).writeG 2 y

/-- `at0` with its context changed. -/
def ctxIs (f : Ctx → Ctx) (s : State) : State := s.updCtx 0 f

/-- `at0` with the first loop level active, its body `n` words from LBASE, and `c` iterations. -/
def loopIs (n : Byte) (c : W32) : State := regsAre fun r =>
  { r with lb := r.lb.set 0 { count := c, len := n, start := 0, on := true } }

/-! ## Witnesses: the hypotheses of the statements can be met -/

theorem wit_ArithmeticResults : ∃ d v, aluResult at0.g (.add 1 2 3 true true) = some (d, v) := ⟨_, _, rfl⟩

theorem wit_BranchResults : (∃ p o, branchOf at0.g (.bLtz 1 2 3) = some (p, o)) ∧
    (loopIs 2 3).cur.regs.faultH = false ∧ (loopIs 2 3).cur.regs.lb[0].on = true := ⟨⟨_, _, rfl⟩, by decide +kernel⟩

theorem wit_JumpResults : (at0.g 1 + (4 : BitVec 16).signExtend 64).toNat % 4 = 0 ∧
    (at0.g 1 + (2 : BitVec 16).signExtend 64).toNat % 4 ≠ 0 := by decide +kernel

theorem wit_LoopsRun : (at0.cur.regs.faultH = false ∧ at0.cur.regs.looping = false ∧ (at0.g 1).toNat < 2 ^ 32) ∧
    (loopIs 1 3).cur.regs.faultH = false ∧ (∀ j : Fin 3, (loopIs 1 3).cur.regs.lb[j].on = true ↔ j = 0) ∧
    (loopIs 1 3).cur.regs.acpc = (loopIs 1 3).cur.regs.bodyEnd 0 := by decide +kernel

theorem wit_EretReturns : (∃ s : State, s.cur.regs.faultH = true ∧ s.cur.regs.nested = true) ∧ at0.cur.regs.faultH = false :=
  ⟨⟨regsAre fun r => { r with faultH := true }, by decide +kernel⟩, by decide +kernel⟩

theorem wit_LoadResults : (∀ n : Fin 17, stagedBad (taskOf at0 at0.cur) 0xFFF n = false) ∧ at0.cur.taskOpen = true ∧
    (promptAccess at0 (at0.g 1 + (0xFFF : BitVec 16).signExtend 64) 1 .read).1 = .ok 0x6FFF ∧
    (promptAccess at0 (at0.g 1 + (0x10 : BitVec 16).signExtend 64) 16 .read).1 = .ok 0x6010 := by decide +kernel

theorem wit_StoreResults : MemOk at0 ∧ speculative at0 at0.cur = false ∧
    (promptAccess at0 (at0.g 1 + (8 : BitVec 16).signExtend 64) 8 .write).1 = .ok 0x6008 := by
  unfold MemOk; decide +kernel

/-- `at0` with its act's task speculative, and one bank lent to its wings. -/
def spec0 : State :=
  let s := ctxIs (fun c => { c with tasks := c.tasks.map fun t => { t with step1 := false } }) at0
  let b : Bank := { bank := 0, use := .wings 0, bytes := [], wake := 0, poison := [] }
  { s with fab := { s.fab with banks := [(0, b)] } }

theorem wit_StoresStaged : ∃ k, taskOf spec0 spec0.cur = some k ∧ k.step1 = false ∧ spec0.cur.taskOpen = true ∧
    (promptAccess spec0 (spec0.g 1 + (8 : BitVec 16).signExtend 64) 8 .write).1 = .ok 0x6008 ∧
    wingTurn spec0 spec0.cur = true ∧ spec0.wingLines spec0.cur.ctx (actDie spec0.me) <
      512 * spec0.wingsAwake spec0.cur.ctx (actDie spec0.me) := ⟨_, rfl, by decide +kernel⟩

/-- `at0` with its page neither writable nor executable. -/
def plainPage : State := { at0 with mem := at0.mem.writeN 0x5000 8 0x6001 }

theorem wit_AccessTraps : (∃ s : State, s.cur.taskOpen = false ∧ s.cur.taskDone = true) ∧
    (at0.cur.taskOpen = true ∧ (at0.g 1 + (2 : BitVec 16).signExtend 64).toNat % 4 ≠ 0) ∧
    canonical 0x8000000000000000 = false ∧
    canonical 0 = true ∧ plainPage.eng.slices = [] ∧ walk plainPage (plainPage.ctx 0) 0 = .leaf 0x6000 false false :=
  ⟨⟨actIs fun a => { a with taskOpen := false, taskDone := true }, by decide +kernel⟩, by decide +kernel⟩

theorem wit_AtomicResults : MemOk at0 ∧ LogReady at0 ∧ at0.eng.atoms = [] ∧
    (promptReach at0 (at0.g 1) 4 .write).1 = .ok 0x6000 := by unfold MemOk LogReady; decide +kernel

/-- One 64-bit addition waiting at the engine of die 0, block 3. -/
def atom0 : AtomReq :=
  { die := 0, blk := 3, stamp := 1, port := 0, srcDie := 0, srcBlk := 0, act := 0, ctx := 0, op := .add, w := false, va := 0, pa := 0x6000,
    operand := 5, expected := 0 }

theorem wit_AtomicEngineServes :
    let s := { at0 with eng := { at0.eng with atoms := [atom0] } }
    MemOk s ∧ nextAtomic s 0 3 = some atom0 ∧ s.fabricReaches 0x6000 = true := by unfold MemOk; decide +kernel

theorem wit_SystemRegisters : (regsAre fun r => { r with faultH := true }).cur.regs.faultH = true ∧
    at0.cur.regs.faultH = false := by decide +kernel

theorem wit_SceneControls :
    (∀ j < 64, (at0.g 1).getLsbD j = true → at0.cur.region.holds { die := at0.cur.region.die, tile := 256 + j } = true) ∧
    (0 < ((with12 (2 ^ 32 - 1) 0).g 1).toNat ∧ ((with12 (2 ^ 32 - 1) 0).g 1).toNat < 2 ^ 32) ∧ at0.g 1 = 0 ∧
    at0.cur.region.cur = (0 : BitVec 2).toNat ∧
    (at0.cur.region.cur ≠ (1 : BitVec 2).toNat ∧ at0.cur.region.arm = false ∧ ((with12 32 0).g 1).toNat % 64 ≠ 0) ∧
    2 ^ 32 ≤ ((with12 (2 ^ 32) 0).g 1).toNat ∧
    (((with12 (2 ^ 63) 0).g 1).getLsbD 63 = true ∧
      (with12 (2 ^ 63) 0).cur.region.holds { die := (with12 (2 ^ 63) 0).cur.region.die, tile := 256 + 63 } = false) := by
  decide +kernel

/-- `at0` with scene slot 1 of its act as given. -/
def slot1 (sl : SceneSlot) : State := actIs fun a => a.updSlot 1 fun _ => sl

/-- A slot that is being loaded. -/
def loading0 : SceneSlot := { st := .loading, image := 0, ends := 0, error := none, job := some { image := 0, no := 0, begun := false } }

/-- The marker run of a curtain of kind 4, without sinks. -/
def curtain0 : MarkerRun := { num := 0, sinks := [], reason := 4, gates := 1, began := 0 }

theorem wit_SceneSlots :
    at0.strokeWaits at0.me = false ∧
    (at0.cur.region.cur ≠ (1 : BitVec 2).toNat ∧ at0.cur.region.arm = false ∧ (at0.g 1).toNat % 64 = 0 ∧
      (at0.cur.slot 1).st ≠ .retiring) ∧
    ((at0.cur.slot 1).job = none ∧ (at0.cur.slot 1).error = none) ∧
    ((slot1 loading0).cur.slot 1).job ≠ none ∧
    (at0.cur.slot (0 : BitVec 2).toNat).job = none ∧
    ((actIs fun a => { a with curtain := some curtain0 }).cur.curtain = some curtain0) := by decide +kernel

theorem wit_CurtainCloses : at0.cur.curtain = none := by decide +kernel

/-- `at0` with an issue buffer of eight commands. -/
def full0 : State := actIs fun a => { a with issue := List.replicate 8 (entryOf at0 .issue 0) }

/-- `at0` with command register c1 naming context queue `n`. -/
def cmd1 (n : Nat) : State := regsAre fun r => { r with c := r.c.set 1 (BitVec.ofNat 128 ((64 + n) * 2 ^ 96)) }

/-- `at0` with command register c1 naming port 5, which is not of its region. -/
def portCmd : State := regsAre fun r => { r with c := r.c.set 1 (BitVec.ofNat 128 (5 * 2 ^ 96)) }

theorem wit_CommandsIssued :
    (at0.cur.taskOpen = true ∧ pqGranted (cmd1 63) (cmd1 63).cur (cmdPq ((cmd1 63).c 1)) = true ∧ commandsHeld at0.cur.issue < 8) ∧
    (at0.g 1).toNat % 32 = 0 ∧
    ((with12 1 0).g 1 ≠ 0 ∧ (with12 1 0).g 1 &&& ~~~(with12 1 0).curCtx.qmask = 0) ∧ at0.g 1 = 0 ∧
    pqGranted portCmd portCmd.cur (cmdPq (portCmd.c 1)) = false ∧ ((with12 16 0).g 1).toNat % 32 ≠ 0 ∧
    8 ≤ commandsHeld full0.cur.issue ∧ 64 ≤ ((with12 64 0).g 1).toNat ∧
    (with12 1 0).g 1 &&& ~~~(ctxIs (fun c => { c with qmask := 0 }) (with12 1 0)).curCtx.qmask ≠ 0 := by decide +kernel

end Sys2Proof.Tests

namespace Sys2Proof.Tests
open Sys2Proof Machine Claims
set_option Elab.async false

/-- `at0` with some event bits set. -/
def ev0 (e : BitVec 16) : State := ctxIs (fun c => { c with ev := e }) at0

/-- `at0` with an atomic of its act waiting at an engine. -/
def pend0 : State := { at0 with eng := { at0.eng with atoms := [atom0] } }

/-- `s` with barrier 3 of its context as given. -/
def bar3 (b : Barrier) (s : State) : State := ctxIs (fun c => { c with bars := c.bars.set 3 b }) s

theorem wit_WaitsComplete :
    ((at0.g 1).toNat < 64 ∧ at0.curCtx.qmask.getLsbD (at0.g 1).toNat = true ∧
      (at0.g 2).toNat ≤ (at0.queue (.ctx (at0.rootOf at0.cur.ctx) (at0.g 1).toNat)).seq) ∧
    ((4 : BitVec 3).toNat < 5 ∧ accessesPending at0 at0.me = false ∧ at0.fencedStreams = []) ∧
    (speculative (ev0 0x8000) (ev0 0x8000).cur = false ∧ (ev0 0x8000).curCtx.ev.getLsbD 15 = true ∧ evtTaken (ev0 0x8000) 15 = false) ∧
    accessesPending pend0 pend0.me = true ∧
    ((bar3 { count := 2, phase := 0, arrived := 1 } (actIs fun a => { a with phases := [(barKey 0 3, 0)] })).curCtx.bar 3).count ≠ 0 ∧
    recordedPhase (bar3 { count := 2, phase := 0, arrived := 1 } (actIs fun a => { a with phases := [(barKey 0 3, 0)] })) 3 = some 0 ∧
    ((with12 0 1).queue (.ctx ((with12 0 1).rootOf 0) 0)).seq < ((with12 0 1).g 2).toNat := by decide +kernel

theorem wit_EventWaits : (at0.g 1).setWidth 16 = 0 ∧ (ev0 2).curCtx.ev &&& ((2 : Dbl).setWidth 16) ≠ 0 ∧
    (((with12 2 0).g 1).setWidth 16 ≠ 0 ∧ (with12 2 0).curCtx.ev &&& ((with12 2 0).g 1).setWidth 16 = 0) := by decide +kernel

theorem wit_BarrierResults :
    let s := bar3 { count := 1, phase := 4, arrived := 0 } at0
    speculative s s.cur = false ∧ s.cur.replay = false ∧ s.cur.log.length < 64 ∧ (s.curCtx.bar 3).count ≠ 0 ∧
      recordedPhase s 3 ≠ some (s.curCtx.bar 3).phase ∧ accessesPending s s.me = false ∧ stagedBy s s.me = false := by decide +kernel

theorem wit_BarrierInit :
    (LogReady at0 ∧ speculative at0 at0.cur = false ∧ ((with12 255 0).g 1).toNat < 256 ∧ (at0.curCtx.bar 3).arrived = 0) ∧
    (at0.curCtx.bar 3).count = 0 ∧ 256 ≤ ((with12 256 0).g 1).toNat ∧
    ((bar3 { count := 2, phase := 0, arrived := 1 } at0).curCtx.bar 3).arrived ≠ 0 := by unfold LogReady; decide +kernel

theorem wit_EventsAndCues : LogReady at0 ∧ speculative at0 at0.cur = false ∧ accessesPending at0 at0.me = false ∧ (3 : BitVec 8) ≠ 0 ∧ ((with12 0 0x10001).g 2).toNat % 2 ^ 16 ≠ 0 := by
  unfold LogReady; decide +kernel

theorem wit_TaskResults :
    (LogReady at0 ∧ stampTaken (with12 2 0).curCtx ((with12 2 0).g 1).toNat = false ∧ (with12 2 0).cur.lastStamp < ((with12 2 0).g 1).toNat) ∧
    (taskOf at0 at0.cur).isSome = true ∧
    ((taskOf full0 full0.cur).isSome = true ∧ full0.cur.issue ≠ []) ∧
    stampTaken (with12 1 0).curCtx ((with12 1 0).g 1).toNat = true := by unfold LogReady; decide +kernel

/-- `at0` with a spawn descriptor at virtual address 0: stamp 2, entry 0x100, a rectangle of one tile, argument 7. -/
def spawn0 : State :=
  { at0 with mem := (((at0.mem.writeN 0x6000 8 2).writeN 0x6008 8 0x100).writeN 0x6010 8 0x01010000).writeN 0x6018 8 7 }

theorem wit_SpawnResult :
    spawn0.cur.life = .running ∧ spawn0.cur.taskOpen = true ∧ speculative spawn0 spawn0.cur = false ∧ LogReady spawn0 ∧
    (promptAccess spawn0 (spawn0.g 1) 32 .read).1 = .ok 0x6000 ∧ (dblsAt spawn0.mem 0x6000 2).toNat = 0x01010000 ∧
    spawnOutside spawn0 spawn0.cur { x := 0, y := 0, w := 1, h := 1 } = false ∧
    stampTaken spawn0.curCtx (dblsAt spawn0.mem 0x6000 0).toNat = false ∧
    spawn0.cur.regs.stamp.toNat < (dblsAt spawn0.mem 0x6000 0).toNat ∧ freeSlots spawn0 0 (blockOf 0 0) ≠ [] := by
  unfold LogReady; decide +kernel

theorem wit_TidResults : tidBusy at0 at0.cur.ctx 255 = false ∧ (promptAccess at0 (at0.g 1) 64 .read).1 = .ok 0x6000 ∧
    (promptAccess at0 (at0.g 1) 64 .write).1 = .ok 0x6000 ∧ tensorOk (dblsAt at0.mem 0x6000) = false := by decide +kernel

/-- The first matrix tile. -/
def mTile : TileId := { die := 0, tile := 17 }

/-- `at0` on a region of 2 by 2 tiles, with g1 naming its matrix tile. -/
def op0 : State := actIs fun a => { a with regs := a.regs.writeG 1 0x101, region := { a.region with w := 2, h := 2 } }

theorem wit_OperandSlots : speculative op0 op0.cur = false ∧ opmTile op0.cur.region (op0.g 1) = some mTile ∧
    op0.opSlotFree mTile 15 = true ∧ (∀ k : Fin 16, slotNamed op0 mTile k.val = false) ∧
    (op0.updTile mTile fun x => x.updSlot 15 fun z => { z with owner := some 0 }).opSlotFree mTile 15 = false ∧
    State.opSlotFree { op0 with fab := { op0.fab with repair := [BitVec.ofNat 32 (mTile.die * 2 ^ 29 + 2 * 2 ^ 27 + mTile.tile * 2 ^ 15 + 15 * 2 ^ 11)] } }
      mTile 15 = false := by
  decide +kernel

/-- `at0` with a child, context 1, of its act's context. -/
def child (f : Ctx → Ctx) : State :=
  let c : Ctx := { Ctx.empty 1 with parent := some 0, depth := 1, ptroot := 0x1000, mbound := 0x10000, fl := 0x10000 }
  { at0 with ctxs := assocSet 1 (f c) at0.ctxs }

/-- `child`, with g1 naming it. -/
def child1 (f : Ctx → Ctx) : State := (child f).updAct 0 fun a => { a with regs := a.regs.writeG 1 1 }

theorem wit_ContextMoves :
    (childNamed (child1 id) ((child1 id).g 1) = some 1 ∧ ((child1 id).ctx 1).revoking = false ∧ ((child1 id).ctx 1).revoked = false ∧
      LogReady (child1 id) ∧ (child1 id).wingsReady 1 (actDie (child1 id).me) = true) ∧
    (actIs fun a => { a with ctxStack := [0] }).cur.ctxStack = [0] ∧
    (childNamed at0 (at0.g 1) = none ∧ at0.cur.taskOpen = true) ∧ at0.cur.ctxStack = [] ∧
    (childNamed (child1 fun c => { c with revoked := true }) 1 = some 1 ∧ ((child1 fun c => { c with revoked := true }).ctx 1).revoked = true) ∧
    (childNamed (child1 fun c => { c with revoking := true }) 1 = some 1 ∧
      ((child1 fun c => { c with revoking := true }).ctx 1).revoking = true) := by unfold LogReady; decide +kernel

/-- `at0` with a context descriptor of zeros but for PTROOT, at virtual address 0. -/
def new0 : State := { at0 with mem := at0.mem.writeN 0x6000 8 0x1000 }

theorem wit_NewContext :
    (new0.curCtx.revoking = false ∧ LogReady new0 ∧ (promptAccess new0 (new0.g 1) 64 .read).1 = .ok 0x6000 ∧
      (promptAccess ((promptAccess new0 (new0.g 1) 64 .read).2.recordPrompter new0.me false (new0.g 1) 64) (new0.g 1 + 64) 64 .read).1 =
        .ok 0x6040 ∧ descClean (descAt new0.mem 0x6000 0x6040) = true ∧ new0.curCtx.depth < 8 ∧ new0.ctxs.length < 4096 ∧
      subsetOk new0 new0.cur.ctx (descAt new0.mem 0x6000 0x6040) = true ∧ (∀ p ∈ new0.ctxs, p.1 ≠ 4095) ∧
      ∃ p ∈ new0.ctxs, p.1 = new0.cur.ctx) ∧
    (8 ≤ (ctxIs (fun c => { c with depth := 8 }) new0).curCtx.depth ∧ LogReady (ctxIs (fun c => { c with depth := 8 }) new0)) ∧
    4096 ≤ ({ new0 with ctxs := new0.ctxs ++ List.replicate 4096 (1, Ctx.empty 1) } : State).ctxs.length ∧
    (let s : State := { new0 with mem := new0.mem.writeN 0x6050 8 0x100 }
     descClean (descAt s.mem 0x6000 0x6040) = true ∧ subsetOk s s.cur.ctx (descAt s.mem 0x6000 0x6040) = false) := by unfold LogReady; decide +kernel

theorem wit_ContextGroupCompletes :
    (let s := ctxIs (fun c => { c with depth := 8 }) new0
     s.cur.taskOpen = true ∧ speculative s s.cur = false ∧ LogReady s ∧ s.curCtx.revoking = false ∧
      (promptAccess s (s.g 1) 64 .read).1 = .ok 0x6000 ∧ descClean (descAt s.mem 0x6000 0x6040) = true ∧ 8 ≤ s.curCtx.depth) ∧
    (let s := (child1 fun c => { c with lastFault := 0x20 }).updAct 0 fun a => { a with ctxStack := [0] }
     speculative s s.cur = false ∧ LogReady s ∧ childNamed s (s.g 1) = some 1 ∧ (s.ctx 1).revoking = false ∧
      s.wingsReady 1 (actDie s.me) = true ∧ (s.ctx 1).revoked = false ∧ s.cur.ctxStack = [0]) := by unfold LogReady; decide +kernel

/-- `child1` with g2 naming a grant descriptor of one queue, and the queue held. -/
def grant0 : State := { child1 id with mem := (child1 id).mem.writeN 0x6000 8 2 }

theorem wit_GrantResult :
    childNamed grant0 (grant0.g 1) = some 1 ∧ (grant0.ctx 1).revoking = false ∧ (grant0.ctx 1).revoked = false ∧
    (1 : Nat) ≠ grant0.cur.ctx ∧ (promptAccess grant0 (grant0.g 2) 64 .read).1 = .ok 0x6000 ∧ grantClean (dblsAt grant0.mem 0x6000) = true ∧
    grantFault grant0 1 (fun k => if k < 8 then dblsAt grant0.mem 0x6000 k else 0) = none ∧
    (dblsAt grant0.mem 0x6000 3).getLsbD 0 = false := by decide +kernel

theorem wit_ChildStates :
    (childNamed (child1 id) ((child1 id).g 1) = some 1 ∧ LogReady (child1 id) ∧ trappedIn (child1 id) 1 = false) ∧
    (let s := child1 fun c => { c with revoking := true }
     childNamed s (s.g 1) = some 1 ∧ (s.ctx 1).revoked = false ∧ (s.ctx 1).revoking = true ∧ s.subtreeQuiet 1 = true ∧
      ∀ p ∈ s.acts, p.2.seqw = none) ∧
    ((child1 id).subtreeQuiet 1 = true ∧ ∀ l ∈ (child1 id).sch.launches, (child1 id).inSubtree 1 l.ctx = false) ∧
    (let s := (child1 fun c => { c with revoking := true }).updAct 5 fun a => { a with life := .running, ctx := 1 }
     childNamed s (s.g 1) = some 1 ∧ (s.ctx 1).revoked = false ∧ (s.ctx 1).revoking = true ∧ s.subtreeQuiet 1 = false) ∧
    (let s := child1 fun c => { c with revoked := true }
     childNamed s (s.g 1) = some 1 ∧ (s.ctx 1).revoked = true ∧ LogReady s) := by unfold LogReady; decide +kernel

end Sys2Proof.Tests

namespace Sys2Proof.Tests
open Sys2Proof Machine Claims
set_option Elab.async false

/-! ## Queues -/

/-- A command quad of R91. -/
def quadOf (opc flg tid pq cnt ops : Nat) : Quad :=
  BitVec.ofNat 128 (opc * 2 ^ 120 + flg * 2 ^ 112 + tid * 2 ^ 104 + pq * 2 ^ 96 + cnt * 2 ^ 64 + ops)

/-- A command that the act of `at0` has placed. -/
def entry0 (c : Quad) : QEntry :=
  { no := 0, cmd := c, act := 0, ctx := 0, stamp := 1, addr := 0, chained := false, node := none, joins := [], again := false,
    unread := false, gone := false, win := [] }

/-- Sixty-four elements of a format, from virtual address 0, `n` bytes apart. -/
def ten0 (f : BitVec 4) (n : Dbl) : TensorEntry := { TensorEntry.zero with fmt := f, d0 := 64, s0 := n, v := true }

/-- The words of a port tile in role 3, all of whose ports are enabled with two slots. -/
def agenCfg : TileCfg :=
  { role := 3, node := false, stages := [], nodeWord := 0, consts := [], ports := List.replicate 8 0x9000000000000000, routes := [],
    init := [] }

/-- Tile `n` of die 0. -/
def tileAt (n : Nat) : TileId := { die := 0, tile := n }

/-- `s` with some words for scene 0 of a tile. -/
def cfg0 (t : TileId) (c : TileCfg) (s : State) : State := s.updTile t fun x => { x with cfg := x.cfg.set 0 (some c) }

/-- `at0` with t1 of 32-bit elements and t2 of LN8 codes, an address generator in the port tile of its region, its gate open, and
power. -/
def base0 : State :=
  let s := ctxIs (fun c => { c with tids := [(1, ten0 6 4), (2, ten0 9 1)], qmask := 0xFFFFFFFFFFFFFFFF }) (cfg0 (tileAt 256) agenCfg at0)
  s.updAct 0 fun a => { a with tokens := 5, region := { a.region with gates := 1 } }

/-- A queue holding one command, and what it has done of it. -/
def queueIs (q : QueueId) (sv : Option Server) (c : Quad) (a : Option Active) (s : State) : State :=
  s.updQueue q fun x => { x with server := sv, entries := [entry0 c], state := 1, active := a }

/-- The port queue of the region of `base0`. -/
def pq0 : QueueId := .port 0 0

/-- The first queue of context 0. -/
def cq0 : QueueId := .ctx 0 0

/-- `base0` with a command at the head of its port queue. -/
def port0 (c : Quad) : State := queueIs pq0 none c none base0

/-- `base0` with a command at the head of a queue of its context that a copy engine serves. -/
def copy0 (c : Quad) : State := queueIs cq0 (some (.copy 0)) c none base0

/-- `base0` with a command at the head of a queue of its context that a collective engine serves. -/
def coll0 (c : Quad) : State := queueIs cq0 (some (.coll 0)) c none base0

/-- What a search has found, where it is one element at `va`. -/
def oneSpot (l : Located) (va : Dbl) : Option (List Place) :=
  match l with
  | .all [.at v ps] _ => if v = va then some ps else none
  | _ => none

/-- The hypothesis `Heads`, as it is decided. -/
def headsB (s : State) (q : QueueId) (opc : Nat) (e : QEntry) (rest : List QEntry) : Prop :=
  ((s.queue q).state ≠ 2 ∧ (s.serverOf q).isSome = true ∧ (s.queue q).entries = e :: rest ∧ (s.queue q).active = none) ∧
  cmdOpc e.cmd = opc ∧ e.unread = false ∧ e.joins.any s.outstanding = false ∧ s.engineTurn q e = true ∧ s.headOk q e = true

theorem heads_of {s : State} {q : QueueId} {opc : Nat} {e : QEntry} {rest : List QEntry} (h : headsB s q opc e rest) :
    Heads s q opc e rest := ⟨h.1.1, h.1.2.1, h.1.2.2.1, h.1.2.2.2, h.2⟩

/-- RD.LIN of the last element of t1. -/
def rdLast : Quad := quadOf 0x01 0 1 0 1 (63 * 2 ^ 32)

theorem wit_StreamsBegin :
    (Heads (port0 rdLast) pq0 0x01 (entry0 rdLast) [] ∧ (port0 rdLast).agenAct pq0 = some (0, tileAt 256) ∧ cmdCnt rdLast ≠ 0) ∧
    (let c := quadOf 0x38 0 1 0 0 0
     Heads (port0 c) pq0 0x38 (entry0 c) [] ∧ (port0 c).agenAct pq0 = some (0, tileAt 256) ∧ cmdCnt c = 0 ∧
      ((port0 c).queue pq0).dropped = false) :=
  ⟨⟨heads_of (by unfold headsB; decide +kernel), by decide +kernel⟩, ⟨heads_of (by unfold headsB; decide +kernel), by decide +kernel⟩⟩

/-- `base0` with a chained command at the head of its context's first queue. -/
def link0 (ops : Nat) : QEntry := { entry0 (quadOf 0x32 0 0 64 0 ops) with chained := true }
def linked (ops : Nat) : State := base0.updQueue cq0 fun x => { x with server := some (.copy 0), entries := [link0 ops], state := 1 }

theorem wit_QueueControls :
    (let c := quadOf 0x33 0 0 0 0 (2 ^ 64 - 1)
     Heads (port0 c) pq0 0x33 (entry0 c) [] ∧ ((port0 c).queue pq0).dropped = false) ∧
    (let c := quadOf 0x18 0 0 0 1 15
     Heads (port0 c) pq0 0x18 (entry0 c) [] ∧ ((port0 c).queue pq0).dropped = false) ∧
    (Heads (linked 0x10) cq0 0x32 (link0 0x10) [] ∧ ((linked 0x10).queue cq0).dropped = false ∧ (link0 0x10).node = none ∧
      (cmdOps (link0 0x10).cmd).toNat % 16 = 0) :=
  ⟨⟨heads_of (by unfold headsB; decide +kernel), by decide +kernel⟩, ⟨heads_of (by unfold headsB; decide +kernel), by decide +kernel⟩,
   ⟨heads_of (by unfold headsB; decide +kernel), by decide +kernel⟩⟩

theorem wit_QueueStores :
    (let c := quadOf 0x30 0 0 0 7 0xFFC
     let s := port0 c
     StorageOk s ∧ Heads s pq0 0x30 (entry0 c) [] ∧ ∃ ps, ps.Nodup ∧
      oneSpot (locateAll (commandAgent s pq0 (entry0 c)) false true 4 [0xFFC] [] ((s.beginPort pq0 (entry0 c)).activate pq0)) 0xFFC = some ps) ∧
    (let c := quadOf 0x31 0 0 0 0 0x8
     let s := port0 c
     StorageOk s ∧ Heads s pq0 0x31 (entry0 c) [] ∧ ∃ ps, ps.Nodup ∧
      oneSpot (locateAll (commandAgent s pq0 (entry0 c)) false true 8 [8] [] ((s.beginPort pq0 (entry0 c)).activate pq0)) 8 = some ps) := by
  refine ⟨⟨by unfold StorageOk MemOk BanksOk; decide +kernel, heads_of (by unfold headsB; decide +kernel), ?_⟩, ⟨by unfold StorageOk MemOk BanksOk; decide +kernel, heads_of (by unfold headsB; decide +kernel), ?_⟩⟩
  · exact ⟨(List.range 4).map fun i => .mem (0x6FFC + i), by decide, by decide +kernel⟩
  · exact ⟨(List.range 8).map fun i => .mem (0x6008 + i), by decide, by decide +kernel⟩

/-- CP of the last element of t1 to its first. -/
def cpLast : Quad := quadOf 0x10 0 1 64 1 (63 * 2 ^ 40 + 1)

/-- CP.2D of one element of t1. -/
def cp2d1 : Quad := quadOf 0x11 0 1 64 1 (2 ^ 48 + 1)

theorem wit_CopiesBegin :
    (let s := copy0 cpLast
     Heads s cq0 0x10 (entry0 cpLast) [] ∧ cmdCnt cpLast ≠ 0 ∧ copyFree s cq0 (copyRanges s cq0 (entry0 cpLast)) = true ∧
      copyYields s cq0 (copyRanges s cq0 (entry0 cpLast)) = false) ∧
    (let s := copy0 cp2d1
     Heads s cq0 0x11 (entry0 cp2d1) [] ∧ cmdCnt cp2d1 ≠ 0 ∧
      gridFault (copySource s (entry0 cp2d1)) (copyDest s (entry0 cp2d1)) cp2d1 = none ∧
      copyFree s cq0 (copyRanges s cq0 (entry0 cp2d1)) = true ∧ copyYields s cq0 (copyRanges s cq0 (entry0 cp2d1)) = false) :=
  ⟨⟨heads_of (by unfold headsB; decide +kernel), by decide +kernel⟩, ⟨heads_of (by unfold headsB; decide +kernel), by decide +kernel⟩⟩

/-- FILL of the last element of t1 with 7. -/
def fillLast : Quad := quadOf 0x12 0 1 64 1 (63 * 2 ^ 32 + 7)

theorem wit_CopiesWrite :
    let s := queueIs cq0 (some (.copy 0)) fillLast (some (Active.fresh 0)) base0
    let e := entry0 fillLast
    StorageOk s ∧ s.headCmd cq0 0x12 = some e ∧ (s.queue cq0).active = some (Active.fresh 0) ∧ (copyAddrs s e).1.2 = none ∧
    (copyAddrs s e).2.2 = none ∧ (copyAddrs s e).1.1 = [] ∧ (copyAddrs s e).2.1 = [0xFC] ∧
    oneSpot (locateAll (engineAgent s cq0 e) (copySource s e).space true (copySource s e).bytesOf [0xFC] [] s) 0xFC =
      some ((List.range 4).map fun i => .mem (0x60FC + i)) := by unfold StorageOk MemOk BanksOk; decide +kernel

/-- RD.OPM of one LN8 code of t2 into slot 15 of M-tile (1, 1). -/
def opmCmd : Quad := quadOf 0x05 0 2 0 1 (63 * 2 ^ 32 + 2 ^ 28 + 2 ^ 24 + 15 * 2 ^ 20)

/-- `base0` on a region of 2 by 2 tiles, slot 15 of its M-tile held, and the fill begun. -/
def fill0 : State :=
  let s := base0.updAct 0 fun a => { a with region := { a.region with w := 2, h := 2 } }
  queueIs pq0 none opmCmd (some (Active.fresh 0)) (s.updTile mTile fun x => x.updSlot 15 fun z => { z with owner := some 0 })

theorem wit_OperandFill :
    ∃ x, fill0.stream pq0 [0x05] = some x ∧ x.g.q = pq0 ∧ x.a.finished = false ∧ opmTarget (fill0.act x.id).region x.cmd = some mTile ∧
      (opmSlots x).1 = [15] ∧ ((fill0.tile mTile).opSlot 15).owner = some 0 ∧ (fill0.act 0).ctx = x.g.e.ctx ∧
      fill0.eng.portNow.2 ≤ x.t.tile ∧ fill0.ticks x.t = true ∧ fill0.ticks mTile = true ∧
      x.a.pos + 1 = cmdCnt x.cmd ∧ cmdSC x.cmd = false ∧
      oneSpot (locateElems x.g x.ten false [63] fill0) 63 = some [.mem 0x603F] ∧
      opmPlace ((opmSlots x).1.headD 0) (opmSlots x).2 x.a.pos = (15, 0, 1) := ⟨_, rfl, by decide +kernel⟩

/-- COL.RED of two ranks, one element of t1, at rank `r`; COL.BAR likewise. -/
def redCmd (r : Nat) : Quad := quadOf 0x20 0 1 64 1 (2 * 2 ^ 16 + r * 2 ^ 8)
def barCmd (r : Nat) : Quad := quadOf 0x22 0 0 64 0 (2 * 2 ^ 16 + r * 2 ^ 8)

theorem wit_CollectivesJoin :
    (let s := coll0 (redCmd 1)
     Heads s cq0 0x20 (entry0 (redCmd 1)) [] ∧ cmdCnt (redCmd 1) ≠ 0 ∧ s.mates (partOf s cq0 (entry0 (redCmd 1))) = [] ∧ s.eng.coll = []) ∧
    (let s := coll0 (barCmd 1)
     Heads s cq0 0x22 (entry0 (barCmd 1)) [] ∧ s.mates (partOf s cq0 (entry0 (barCmd 1))) = []) :=
  ⟨⟨heads_of (by unfold headsB; decide +kernel), by decide +kernel⟩, ⟨heads_of (by unfold headsB; decide +kernel), by decide +kernel⟩⟩

/-- A command of collective 0 at rank 1 that has begun, the other rank's part and its own: both have contributed 5. -/
def both0 (c : Quad) : State :=
  let s := queueIs cq0 (some (.coll 0)) c (some (Active.fresh 0)) base0
  let p := { partOf s cq0 (entry0 c) with ready := true, values := [5] }
  { s with eng := { s.eng with coll := [{ p with q := .ctx 0 1, rank := 0 }, p] } }

theorem wit_CollectivesEnd :
    (∃ p, (both0 (barCmd 1)).partAt cq0 = some p ∧ (both0 (barCmd 1)).headCmd cq0 0x22 = some (entry0 (barCmd 1)) ∧
      ((both0 (barCmd 1)).queue cq0).active = some (Active.fresh 0) ∧ p.opc = 0x22 ∧ p.ready = true ∧
      matched (both0 (barCmd 1)) p = true) ∧
    (∃ p, (both0 (redCmd 1)).partAt cq0 = some p ∧ (both0 (redCmd 1)).headCmd cq0 0x20 = some (entry0 (redCmd 1)) ∧
      StorageOk (both0 (redCmd 1)) ∧ p.opc = 0x20 ∧ p.root = false ∧ p.ready = true ∧ matched (both0 (redCmd 1)) p = true ∧
      (∀ m ∈ (both0 (redCmd 1)).mates p, m.ready = true) ∧ (received ((both0 (redCmd 1)).mates p) p).map (·.1) = [0] ∧
      addrsOf (copySource (both0 (redCmd 1)) (entry0 (redCmd 1))) [0] = ([0], none) ∧
      oneSpot (locateAll (engineAgent (both0 (redCmd 1)) cq0 (entry0 (redCmd 1))) false true 4 [0] [] (both0 (redCmd 1))) 0 =
        some ((List.range 4).map fun i => .mem (0x6000 + i))) :=
  ⟨⟨_, rfl, by decide +kernel⟩, ⟨_, rfl, by unfold StorageOk MemOk BanksOk; decide +kernel⟩⟩

theorem wit_CommandCompletes :
    let s := queueIs pq0 none rdLast (some { Active.fresh 0 with finished := true }) base0
    (s.queue pq0).active = some { Active.fresh 0 with finished := true } ∧ (s.queue pq0).state ≠ 2 ∧
    (s.queue pq0).entries = [entry0 rdLast] ∧ (s.queue pq0).dropped = false := by decide +kernel

/-- `base0` with one entry in its act's issue buffer. -/
def leaves0 (k : IssueKind) (c : Quad) : State :=
  base0.updAct 0 fun a => { a with issue := [{ kind := k, cmd := c, addr := 0, ctx := 0, stamp := 1, held := false, late := false }] }

/-- The entry is appended to a chain of queue 0 whose TAIL is 0x100 and LIMIT 0x140. -/
def appends0 : State :=
  let s := (leaves0 (.append 0) rdLast).updQueue cq0 fun x => { x with server := some (.copy 0) }
  { s with mem := (s.mem.writeN 0x6000 8 0x100).writeN 0x6008 8 0x140 }

theorem wit_CommandLeaves :
    (let s := leaves0 .issue rdLast
     let e : IssueEntry := { kind := .issue, cmd := rdLast, addr := 0, ctx := 0, stamp := 1, held := false, late := false }
     (s.act 0).issue = [e] ∧ mayLeave s e = true ∧ (s.act 0).life = .running ∧ (s.act 0).replayed true = none ∧ (s.act 0).log.length < 64 ∧
      queueNamed s (s.act 0).region.die e.ctx (cmdPq e.cmd) = some pq0 ∧ s.bound pq0 = true) ∧
    (let s := appends0
     ((accessAct s 0 0 0 .write).1 = .ok 0x6000 ∧ (s.act 0).replayed true = none ∧ (s.ctx 0).qmask.getLsbD 0 = true) ∧
      s.bound (.ctx (s.rootOf 0) 0) = true ∧ (s.queue cq0).chain = none ∧ s.mem.readN 0x6000 8 = 0x100 ∧ s.mem.readN 0x6008 8 = 0x140 ∧
      s.mem.readN 0x6010 1 = 0 ∧ (accessAct (accessAct s 0 0 0 .write).2 0 0 0x100 .write).1 = .ok 0x6100) := by decide +kernel

/-- A chain of queue 0 with one slot that an append has written. -/
def chain0 : State :=
  base0.updQueue cq0 fun x =>
    { x with server := some (.copy 0), chain := some 0x20, head := 0x100, entries := [{ link0 0 with unread := true, addr := 0x100 }], state := 1 }

theorem wit_ChainRead :
    chain0.serverOf cq0 = some (.copy 0) ∧ chainSlot chain0 cq0 = some { link0 0 with unread := true, addr := 0x100 } ∧
    (chain0.queue cq0).state ≠ 2 ∧ (∀ y ∈ (chain0.queue cq0).entries, y.unread = true) ∧ chain0.nodeUnread cq0 = true ∧
    (accessAs chain0 (.queue cq0) 0 0 0 0 0x100 .read).1 = .ok 0x6100 := by decide +kernel

/-- `base0` with RD.LIN of the last element begun on output 0. -/
def reads0 : State := queueIs pq0 none rdLast (some { Active.fresh 0 with outs := [0] }) base0

theorem wit_ReadToken :
    ∃ x, reads0.stream pq0 [0x01, 0x02, 0x38] = some x ∧ cmdOpc x.cmd = 0x01 ∧ x.a.finished = false ∧ x.a.pos < cmdCnt x.cmd ∧
      scalesBefore x ≤ x.a.scaled ∧ reads0.canSend x (reads0.act x.id).region.cur = true ∧
      0 < (reads0.act (reads0.act x.id).regionRoot).tokens ∧ reads0.ticks x.t = true ∧
      MayFire reads0 x.id x.t .agen (reads0.streamWants x) ∧ PortsTurn reads0 x ∧
      oneSpot (locateElems x.g x.ten false [63] reads0) 0xFC = some ((List.range 4).map fun i => .mem (0x60FC + i)) :=
  ⟨_, rfl, by unfold MayFire PortsTurn; decide +kernel⟩

/-- FENCE.S waits for the stream that its region has opened. -/
theorem wit_FenceWaits : reads0.fencedStreams ≠ [] := by decide +kernel

/-- A token that stands at an input of the port tile. -/
def standing (t : Token) : BufTok :=
  { tok := t, valid := 0, link := { src := tileAt 0, out := 0, scene := 0, dest := .input (tileAt 256) 0 }, hops := 1, credit := true,
    entered := true, bad := false }

/-- `s` with some tokens at input 0 of the port tile. -/
def input0 (l : List BufTok) (s : State) : State := s.updTile (tileAt 256) fun x => { x with inbuf := x.inbuf.set 0 l }

/-- `base0` with WR.LIN of one element of t1 begun. -/
def writes0 : State := queueIs pq0 none (quadOf 0x03 0 1 0 1 0) (some (Active.fresh 0)) base0

/-- A data token with lane 0 valid. -/
def data0 : BufTok := standing (dataTok 0 1 Lanes.zero)

theorem wit_WriteToken :
    (∃ x tok, (input0 [data0] writes0).stream pq0 [0x03, 0x04, 0x06] = some x ∧ (input0 [data0] writes0).inputTok x (cmdD x.cmd) = some tok ∧
      cmdOpc x.cmd ≠ 0x04 ∧ x.g.q = pq0 ∧ x.a.saved = [] ∧ x.a.finished = false ∧ x.a.ending = false ∧ x.a.pos < cmdCnt x.cmd ∧
      (input0 [data0] writes0).head x.t (cmdD x.cmd) = some data0 ∧ isData data0 = true ∧
      1 ≤ ((input0 [data0] writes0).act ((input0 [data0] writes0).act x.id).regionRoot).tokens ∧
      (input0 [data0] writes0).ticks x.t = true ∧
      MayFire (input0 [data0] writes0) x.id x.t .agen ((input0 [data0] writes0).streamWants x) ∧ PortsTurn (input0 [data0] writes0) x) ∧
    (∃ x, (input0 [standing (closeTok 0)] writes0).stream pq0 [0x03, 0x04, 0x06] = some x ∧ x.g.q = pq0 ∧ x.a.finished = false ∧
      (input0 [standing (closeTok 0)] writes0).head x.t (cmdD x.cmd) = some (standing (closeTok 0)) ∧
      isClose (standing (closeTok 0)) = true ∧ x.a.saved = [] ∧ (input0 [standing (closeTok 0)] writes0).ticks x.t = true ∧
      ((((input0 [standing (closeTok 0)] writes0).tile x.t).portNext[cmdD x.cmd]?).getD 0 ≤
        (input0 [standing (closeTok 0)] writes0).cycle)) :=
  ⟨⟨_, _, rfl, rfl, by unfold MayFire PortsTurn; decide +kernel⟩, ⟨_, rfl, by decide +kernel⟩⟩

end Sys2Proof.Tests

namespace Sys2Proof.Tests
open Sys2Proof Machine Claims
set_option Elab.async false

/-! ## The fabric -/

/-- The words of a tile that passes input 0 to output 0, whose circuit ends at its own input 1; all ports have two slots but input 3,
which has none. -/
def passCfg : TileCfg :=
  { role := 1, node := false, stages := [0x0000008000000000], nodeWord := 0, consts := [],
    ports := List.replicate 3 0x9000000000000000 ++ [0x8000000000000000] ++ List.replicate 4 0x9000000000000000,
    routes := List.replicate 16 0 ++ [0x84010000, 0x84030000], init := [] }

/-- `base0` with those words in tile 0, and some tokens at its input 0. -/
def pass0 (c : TileCfg) (l : List BufTok) : State :=
  (cfg0 (tileAt 0) c base0).updTile (tileAt 0) fun x => { x with inbuf := x.inbuf.set 0 l }

theorem wit_PipelineFires :
    let s := pass0 passCfg [data0]
    s.liveOwner (tileAt 0) = some 0 ∧ ∃ x, s.pipeFiring 0 (tileAt 0) = some x ∧ s.pipeFree (tileAt 0) x = true ∧
      s.pipeRoom 0 (tileAt 0) x = true ∧ s.powered 0 (tileAt 0) x.eats = true ∧
      MayFire s 0 (tileAt 0) .pipe (s.pipeWants 0 (tileAt 0)).toNat ∧ s.pledged 0 (tileAt 0) x.scene (x.c.inputsOf .pipe) = false :=
  ⟨by decide +kernel, _, rfl, by unfold MayFire; decide +kernel⟩

theorem wit_GenCloses :
    let s := (pass0 passCfg []).updTile (tileAt 0) fun x =>
      { x with st := { x.st with scenes := x.st.scenes.set 3 { SceneSt.zero with closes := [3] } } }
    s.liveOwner (tileAt 0) = some 0 ∧ (s.sceneSt (tileAt 0) 3).closes = [3] := by decide +kernel

/-- `base0` on 2 by 2 tiles, with a node word in its M-tile and tokens at inputs 0 and 1. -/
def node0 (w : Dbl) (a b : List BufTok) : State :=
  let s := base0.updAct 0 fun a => { a with region := { a.region with w := 2, h := 2 } }
  let c : TileCfg := { passCfg with role := 0, node := true, stages := [], nodeWord := w }
  (cfg0 mTile c s).updTile mTile fun x => { x with inbuf := (x.inbuf.set 0 a).set 1 b }

/-- MM with slot 15; MM.SP of blocks of two, with its metadata at input 1. -/
def mmWord : Dbl := 0x00F0000000000000
def spWord : Dbl := 0x10F1020000000000

theorem wit_ProductsApplied :
    (let s := node0 mmWord [data0] []
     s.liveOwner mTile = some 0 ∧ s.firingScene (s.act 0) mTile .node = some 0 ∧ nodeMode mmWord = 0 ∧ s.nodeFree mTile mmWord = true ∧ (s.tile mTile).st.node.oneShot = none ∧ s.filling mTile (nodeSlots mmWord) = false ∧
      s.powered 0 mTile [0] = true ∧ s.underCap 0 = true ∧ nodePoison s 0 mTile mmWord = none ∧
      MayFire s 0 mTile .node (s.nodeWants 0 mTile).toNat ∧ s.pledged 0 mTile 0 [0] = false) ∧
    (let s := node0 spWord [data0] [data0]
     s.liveOwner mTile = some 0 ∧ s.firingScene (s.act 0) mTile .node = some 0 ∧ nodeMode spWord = 1 ∧ s.nodeFree mTile spWord = true ∧
      (s.tile mTile).st.node.oneShot = none ∧ s.filling mTile (nodeSlots spWord) = false ∧ s.powered 0 mTile [0, 1] = true ∧
      s.underCap 0 = true ∧ nodePoison s 0 mTile spWord = none ∧
      MayFire s 0 mTile .node (s.nodeWants 0 mTile).toNat ∧ s.pledged 0 mTile 0 [0, 1] = false) := by unfold MayFire; decide +kernel

/-- Whether a one-shot word of a mode fires in `node0` with a token at its A input, with room for `n` tokens. -/
def shoots (mode : Nat) (n : Nat) : Bool :=
  let w : Dbl := BitVec.ofNat 64 (mode * 2 ^ 60)
  let s := node0 w [data0] []
  s.liveOwner mTile == some 0 && slotFree s mTile .node && s.ticks mTile && decide ((s.tile mTile).st.node.busy ≤ s.cycle)
    && s.powered 0 mTile [0] && s.roomOn 0 mTile 0 0 n && (s.badInput mTile).isNone && !s.early 0 && !s.pledged 0 mTile 0 [0]
    && decide ((s.nodeWants 0 mTile).toNat + s.wantsBefore (s.act 0).regionRoot mTile .node ≤ (s.act (s.act 0).regionRoot).tokens)
    && (s.oneShotScene 0 mTile mode).map (fun x => (x.1, x.2.2)) == some (0, true)

theorem wit_OneShots : shoots 2 0 = true ∧ shoots 3 2 = true ∧ shoots 4 1 = true := by decide +kernel

/-- A tile whose pipeline waits at its zero-slot input 3, where the circuit of its output 1 ends. -/
def zero0 : State := pass0 { passCfg with stages := [0x0003008000000000] } []

theorem wit_ZeroSlotRequests :
    zero0.liveOwner (tileAt 0) = some 0 ∧ ((zero0.tile (tileAt 0)).inbuf[3]?).getD [] = [] ∧ zero0.fab.requests = [] ∧
    zero0.askScenes 0 (tileAt 0) .pipe 3 = [0] ∧ zero0.askScenes 0 (tileAt 0) .node 3 = [] ∧ zero0.askScenes 0 (tileAt 0) .agen 3 = [] ∧
    zero0.early 0 = false ∧
    1 + zero0.wantsBefore (zero0.act 0).regionRoot (tileAt 0) .pipe ≤ (zero0.act (zero0.act 0).regionRoot).tokens ∧
    zero0.linksInto 0 (tileAt 0) 3 ≠ [] ∧ (∀ b ∈ zero0.linksInto 0 (tileAt 0) 3, zero0.linkSlots 0 b.1 = 0 ∧ b.1.scene = 0) ∧
    (let s := zero0.updAct 0 fun a => { a with tokens := 0 }
     s.askScenes 0 (tileAt 0) .pipe 3 = [0] ∧ s.early 0 = false ∧ (s.act (s.act 0).regionRoot).tokens = 0) := by decide +kernel

/-- A marker of a kind that stands at an input. -/
def marker0 (kind : Nat) : Token := markerTok kind 0 7

theorem wit_MarkersPass :
    (∀ k : Fin 4, k ≠ 0 →
      let s := pass0 passCfg [standing (marker0 k)]
      s.liveOwner (tileAt 0) = some 0 ∧ passScene s (tileAt 0) .pipe = some 0 ∧ s.cfg (tileAt 0) 0 = some passCfg ∧ (marker0 k).mark = true ∧
      s.passInputs (tileAt 0) passCfg .pipe = [0] ∧ s.gateHead (tileAt 0) 0 = some (marker0 k) ∧ slotFree s (tileAt 0) .pipe = true ∧
      s.ticks (tileAt 0) = true ∧ passCfg.outputsOf .pipe = [0] ∧ s.ownBranches 0 (tileAt 0) 0 0 ≠ [] ∧
      (∀ b ∈ s.ownBranches 0 (tileAt 0) 0 0, s.canPlace 0 b.1 = true) ∧ s.badInput (tileAt 0) = none ∧
      s.pledged 0 (tileAt 0) 0 [0] = false) ∧
    (let s := input0 [standing (marker0 2)] base0
     s.liveOwner (tileAt 256) = some 0 ∧ (marker0 2).mark = true) := by decide +kernel

/-- The words of a tile whose LDEC makes input 0 scale-aware. -/
def ldecCfg : TileCfg := { passCfg with stages := [0x6290008000000001] }

theorem wit_ScaleTokens :
    (let s := pass0 passCfg [standing (scaleTok 0 255)]
     s.liveOwner (tileAt 0) = some 0 ∧ s.scaleHead (tileAt 0) 0 = some (standing (scaleTok 0 255), 0, passCfg) ∧ passCfg.has .pipe = true ∧
      0 ∈ passCfg.inputsOf .pipe ∧ scaleInput passCfg.stages 0 = false ∧ ∀ o ∈ passCfg.outputsOf .pipe, s.ready 0 (tileAt 0) o 0 1 = true) ∧
    (let s := pass0 ldecCfg [standing (scaleTok 0 255)]
     s.scaleHead (tileAt 0) 0 = some (standing (scaleTok 0 255), 0, ldecCfg) ∧ ldecCfg.has .pipe = true ∧ 0 ∈ ldecCfg.inputsOf .pipe ∧
      scaleInput ldecCfg.stages 0 = true) ∧
    (let s := node0 mmWord [standing (scaleTok 0 255)] []
     s.liveOwner mTile = some 0 ∧ (s.scaleHead mTile 0).map (fun x => (x.1, x.2.1)) = some (standing (scaleTok 0 255), 0) ∧
      (s.cfg mTile 0).map (fun c => (c.has .pipe, c.has .node, nodeAP c.nodeWord)) = some (false, true, 0)) := by decide +kernel

theorem wit_TokensEnter :
    let s := pass0 passCfg [data0, { data0 with entered := false }]
    s.ownerOf (tileAt 0) = some 0 ∧ (s.act 0).curtain = none ∧ (s.act 0).region.quiet = false ∧
    (s.tile (tileAt 0)).inbuf[0]? = some ([data0] ++ { data0 with entered := false } :: []) ∧ data0.entered = true ∧
    data0.valid ≤ s.cycle := by decide +kernel

/-- `at0` with one token on its way to be dropped. -/
def drop0 (d : Dest) : State :=
  let k : DropTok := { due := 0, who := { ctx := 0, parent := none, part := 0, depth := 1 }, link := { src := tileAt 0, out := 0, scene := 0, dest := d }, tok := dataTok 0 1 Lanes.zero }
  { at0 with fab := { at0.fab with drops := [k] } }

theorem wit_TokensDropped :
    ((drop0 (.hedge (tileAt 1) 3 0)).firstDrop fun l => match l.dest with
      | .hedge u _ _ => u.die == 0
      | _ => false).isSome = true ∧
    ((drop0 (.listed (tileAt 1))).firstDrop fun l => match l.dest with
      | .listed u => u.die == 0
      | _ => false).isSome = true ∧
    ((drop0 .off).firstDrop fun l => l.dest == .off && l.src.die == 0).isSome = true := by decide +kernel

/-- A marker run without sinks. -/
def run0 (reason : Nat) : MarkerRun := { num := 0, sinks := [], reason := reason, gates := 0, began := 0 }

theorem wit_MarksAndCuts :
    (let s := actIs fun a => { a with markDue := 1 }
     0 < (s.act 0).markDue ∧ (s.act 0).cutRun = none ∧ (s.act 0).present = true ∧ s.early 0 = false) ∧
    ((actIs fun a => { a with cutRun := some (run0 1) }).act 0).cutRun = some (run0 1) := by decide +kernel

/-- `at0` whose act has been stalled as long as its watchdog allows. -/
def stall0 : State := { actIs (fun a => { a with stalled := 115000, lastStall := some 115000 }) with cycle := 115000 }

theorem wit_RegionsRollBack :
    (∃ c, (at0.act 0).cut = some c ∧ (at0.act 0).present = true ∧ (∀ t ∈ at0.ownTiles 0, (at0.tile t).shadowBad = false) ∧
      (0x20 : Byte) ∉ (at0.act 0).retried ∧ (0x50 : Byte) ∉ (at0.act 0).retried ∧ (at0.act 0).curtain = none ∧
      at0.fab.badShadows.contains 0 = false ∧ at0.ctxLive c.ctx = true) ∧
    (∃ c, (stall0.act 0).cut = some c ∧ watchdogFires stall0 0 = true ∧ (∀ t ∈ stall0.ownTiles 0, (stall0.tile t).shadowBad = false) ∧
      (0x20 : Byte) ∉ (stall0.act 0).retried ∧ (stall0.act 0).curtain = none ∧
      stall0.fab.badShadows.contains 0 = false ∧ stall0.ctxLive c.ctx = true) := ⟨⟨_, rfl, by decide +kernel⟩, ⟨_, rfl, by decide +kernel⟩⟩

/-- A page request of act 0, for page 0 of context 0. -/
def page0 : PageReq :=
  { tag := 5, ctx := 0, va := 0, page := 0, passed := true, kind := 0, die := 0, tile := 0, act := 0, vdev := 0, reserved := false, posted := 0, waiters := [.act 0] }

/-- `at0` with that request, overdue by its act's limit exactly. -/
def overdue0 : State :=
  { at0 with cycle := 2300 * (at0.act 0).pflim, eng := { at0.eng with pages := [page0] } }

theorem wit_CurtainsEnd :
    ((overdue0.act 0).present = true ∧ drainDue overdue0 0 = true ∧ (overdue0.act 0).curtain = none) ∧
    (∀ r : Fin 4, ((actIs fun a => { a with curtain := some (run0 r) }).act 0).curtain = some (run0 r)) ∧
    (ctxIs (fun c => { c with revoking := true }) at0).ctxLive 0 = false ∧ at0.ctxLive (at0.act 0).ctx = true ∧ at0.sch.revokes = [] := by
  decide +kernel

/-- A partition without rectangles. -/
def spec1 : PartSpec :=
  { rects := [], base := 0, length := 0, ring := 0, slotLen := 1, symbols := 14, offset := 0, gap := 0, stall := 0, status := 0 }
def part1 : Partition :=
  { id := 0, spec := spec1, counters := [], held := [], shares := [], scaled := [], running := 0, quantumEnd := 0, nextStart := 0, switching := false,
    late := none, statusWritten := [] }

/-- `at0` at a cycle, its context's partition having a stroke at cycle 0 and `n` strokes acted on, its region armed for slot 3, which
is loaded. -/
def bell0 (cycle n : Nat) : State :=
  let s := actIs fun a =>
    ({ a with region := { a.region with arm := true, tgt := 3 } }).updSlot 3 fun sl => { sl with st := .loaded }
  { s with cycle := cycle, sch := { s.sch with parts := [part1] },
           ctl := { s.ctl with bell := { s.ctl.bell with slots := [(0, 0)], acted := [(0, 0, n)] } } }

/-- An interval boundary that stands in for a stroke is due, in a partition without a bell. -/
theorem wit_StrokesAwaited :
    (let p := { part1 with spec := { spec1 with slotLen := 0, symbols := 0 } }
     ({ at0 with cycle := 2300, sch := { at0.sch with parts := [p] } } : State).strokeWaits at0.me) = true := by decide +kernel

theorem wit_StrokesAct :
    ((bell0 0 0).part? 0 = some part1 ∧ spec1.slotLen ≠ 0 ∧ assoc? 0 (bell0 0 0).ctl.bell.slots = some 0 ∧
      (bell0 0 0).ctl.bell.count 0 0 = 0 ∧ (bell0 0 0).cdFailed 0 = false ∧ (bell0 0 0).ctl.bell.follows 0 = 0 ∧
      strokeTime spec1 0 0 + skewOf 0 0 ≤ 0) ∧
    ((bell0 10267 1).ctl.bell.count 0 0 % strokesOf spec1 ≠ 0 ∧ strokeTime spec1 0 1 + skewOf 0 0 ≤ (bell0 10267 1).cycle) ∧
    ((bell0 144 0).cdFailed 1 = false ∧ strokeTime spec1 0 0 + skewOf 1 0 ≤ (bell0 144 0).cycle ∧
      (bell0 144 0).ctl.bell.standby.contains 0 = false ∧ strokeTime spec1 0 0 + skewOf 0 0 + 16 ≤ (bell0 144 0).cycle) ∧
    (let s := bell0 1 0
     strokeTime spec1 0 0 + skewOf 0 0 ≤ s.cycle ∧ s.acts.map (·.1) = [0] ∧ (s.act 0).present = true ∧ (s.act 0).region.die = 0 ∧
      (s.ctx (s.act 0).ctx).part = 0 ∧ (s.act 0).region.tgt = 3 ∧ 3 ≠ (s.act 0).region.cur ∧ mayStrike (s.act 0) = true ∧
      (s.act 0).region.armed < s.cycle ∧ s.ticks (s.act 0).region.corner = true ∧ s.parityTile 0 3 = none) := by decide +kernel

theorem wit_IntervalsEnd :
    (let s : State := { at0 with cycle := 2300 }
     (s.interval + 1) * 2300 ≤ s.cycle) ∧
    (let b : Bank := { bank := 511, use := .window 0, bytes := [(0, 1)], wake := 9, poison := [] }
     let s : State := { at0 with cycle := 9, fab := { at0.fab with banks := [(511, b)] } }
     (s.bank (0 * 512 + 511)).wake ≠ 0 ∧ (s.bank (0 * 512 + 511)).wake ≤ s.cycle) := by decide +kernel

end Sys2Proof.Tests

namespace Sys2Proof.Tests
open Sys2Proof Machine Claims
set_option Elab.async false

/-! ## Tasks, pages and the scheduler -/

/-- Doubles written from a physical address on. -/
def words (pa : Nat) (l : List Nat) (s : State) : State :=
  { s with mem := (List.range l.length).foldl (fun m i => m.writeN (pa + 8 * i) 8 ((l[i]?).getD 0)) s.mem }

/-- A task of stamp 1 that shares its act. -/
def task0 (f : Task → Task) : State := ctxIs (fun c => { c with tasks := c.tasks.map f }) at0

/-- A staged line at virtual address 0xFC0 whose last byte is staged. -/
def line0 : WingLine := { die := 0, act := 0, line := 63, bytes := [(63, 0xAB)], mark := 0, nth := 0, bad := [] }

theorem wit_StepOneTaken :
    let s := task0 fun t => { t with step1 := false, lines := [line0] }
    MemOk s ∧ ∃ k, (s.ctx 0).tasks.find? (fun t => !t.step1 && oldest s 0 t) = some k ∧ linesPresent s 0 k = true ∧ linesFree s 0 k = true ∧ k.lines = [line0] ∧
      (lineXlate s 0 line0).1 = .ok 0x6FC0 := ⟨by unfold MemOk; decide +kernel, _, rfl, by decide +kernel⟩

theorem wit_StepOneAtomics :
    let s := task0 fun t => { t with step1 := false, deferred := [atom0] }
    ∃ k, (s.ctx 0).tasks.find? (fun t => !t.step1 && oldest s 0 t) = some k ∧ linesPresent s 0 k = true ∧ linesFree s 0 k = true ∧
      k.deferred = [atom0] ∧ k.lines = [] ∧ (deferredXlate s 0 atom0).1 = .ok 0x6000 ∧ homeOf 0x6000 = (0, 9) := ⟨_, rfl, by decide +kernel⟩

/-- A later task of act 1, with its checkpoint, that has read the line that the oldest wrote. -/
def later0 : Task :=
  { no := 7, stamp := 2, act := 1, parts := [1], step1 := false, checks := [(1, Regs.zero.checkpoint [])], lines := [], deferred := [],
    ranges := [{ act := 1, also := [], write := false, space := false, lo := 63, hi := 63, src := 64, chan := 0, due := false }], accs := [], aborts := 0 }

/-- The oldest task has ended its parts and written a line; with `b`, a later one stands behind it. -/
def commit0 (b : Bool) : State :=
  let s := task0 fun t =>
    { t with parts := [], ranges := [{ act := 0, also := [], write := true, space := false, lo := 0, hi := 63, src := 64, chan := 0, due := false }] }
  ctxIs (fun c => { c with tasks := c.tasks ++ if b then [later0] else [] }) (s.updAct 0 fun a => { a with taskOpen := false, prevStamp := 1 })

theorem wit_TaskCommits :
    NoDeposits (commit0 false) 0 ∧ NoDeposits (commit0 true) 0 ∧
    (∃ k, ((commit0 false).ctx 0).tasks.find? (mayCommit (commit0 false) 0) = some k ∧
      ∀ u ∈ ((commit0 false).ctx 0).tasks, k.stamp < u.stamp → conflicts (commit0 false) k u = false) ∧
    (∃ k, ((commit0 true).ctx 0).tasks.find? (mayCommit (commit0 true) 0) = some k ∧
      ((commit0 true).ctx 0).tasks.filter (fun u => decide (k.stamp < u.stamp) && conflicts (commit0 true) k u) = [later0] ∧
      laterTasks (commit0 true) later0 = [] ∧ later0.no ≠ k.no) :=
  ⟨by unfold NoDeposits; decide +kernel, by unfold NoDeposits; decide +kernel, ⟨_, rfl, by decide +kernel⟩, ⟨_, rfl, by decide +kernel⟩⟩

theorem wit_PagesServed :
    (canonical 0xFFF = true ∧ at0.eng.slices = [] ∧ walk at0 (at0.ctx 0) 0xFFF = .leaf 0x6FFF true true) ∧
    ({ at0 with eng := { at0.eng with pages := [page0] } } : State).eng.pages.find? (fun p => p.tag == 5) = some page0 ∧
    at0.sch.green = [] ∧ drainDue at0 0 = false ∧ (at0.cdie at0.leader).pageRings.2 = 0 ∧
    at0.rangeBusy 0 0 4096 = false ∧ pend0.rangeBusy 0 0xFFF 1 = true ∧ pend0.rangeBusy 0 0x1000 4096 = false := by decide +kernel

/-- `at0` with a ring of its context at 0x100 that holds one record, at 0x200, and room for structures beyond. -/
def ring0 (r : List Nat) : State := words 0x6100 [0x200, 0, 0, 1] (words 0x6200 r (ctxIs (fun c => { c with sring := 0x100 }) at0))

/-- A submission record of `ring0` is read. -/
def showsB (s : State) (kind : Nat) : Bool :=
  !s.ctl.sec.quiesced && match ringRecord 0 s with
    | .got (some (va, r)) s' => bits (dblAt r 0) 0 8 == kind && s' == s && va == 0x200
    | _ => false

/-- A launch of context 0. -/
def launch0 (st : LaunchSt) : Launch :=
  { launchOf 3 0 [0, 0x800, 0, 0, 0, 0, 0x3E0] none 0 with state := st }

/-- `s` with some launches. -/
def launches (l : List Launch) (s : State) : State := { s with sch := { s.sch with launches := l } }

/-- A record of a launch; of a graph of one function node of stamp 2; of a cancel; of a queue reset. -/
def launchRec : List Nat := [1, 0x800, 0, 0, 0, 0, 0x3E0, 0]
def graphRec : List Nat := [2 + 2 ^ 8, 0x300, 0x3E0, 0, 0, 0, 0, 0]
def graphRing : State := words 0x6300 [3, 2, 0x400] (ring0 graphRec)

/-- The nodes of a graph that were read in order. -/
def nodesB (s : State) (n : Nat) (va : Dbl) : Bool :=
  match readNodes 0 n n va [] s with
  | .got ns s' => s' == s && (graphError (s.ctx 0) ns).isNone && ns.length == n
  | _ => false

theorem wit_RecordsTaken :
    (at0.ctx 0).sring = 0 ∧ showsB (ring0 launchRec) 1 = true ∧ (ring0 launchRec).ringWaits 0 = false ∧
    launchClean (launchRec.map (BitVec.ofNat 64 ·)) = true ∧
    (showsB graphRing 2 = true ∧ graphClean (graphRec.map (BitVec.ofNat 64 ·)) = true ∧ graphRing.poolSize + 1 ≤ 16384 ∧
      nodesB graphRing 1 0x300 = true) ∧
    (let s := launches [launch0 .waiting] (ring0 [3, 0x3E0, 0, 0, 0, 0, 0, 0])
     showsB s 3 = true ∧ s.sch.launches.find? (fun l => l.ctx == 0 && l.done == 0x3E0 && !l.state.ended) = some (launch0 .waiting) ∧
      s.launch? 3 = some (launch0 .waiting) ∧ (launch0 .waiting).node = none ∧ ∀ p ∈ s.acts, p.2.launch ≠ some 3) ∧
    (showsB (ring0 [4 + 63 * 2 ^ 8, 0, 0, 0, 0, 0, 0, 0]) 4 = true ∧
      ((ring0 [4 + 63 * 2 ^ 8, 0, 0, 0, 0, 0, 0, 0]).ctx 0).qmask.getLsbD 63 = true ∧
      ((ring0 [4 + 63 * 2 ^ 8, 0, 0, 0, 0, 0, 0, 0]).queue (.ctx 0 63)).active = none) := by decide +kernel

/-- `at0` whose context and its partition hold die 0, with an image at 0x800 for its last tile, of one idle block. -/
def image0 : State :=
  let s := ctxIs (fun c => { c with rects := c.rects.set 0 0x800000FF }) at0
  let s := words 0x6800 [0xA9010FF000010000, 0xF8] (words 0x6840 [255 * 2 ^ 20] s)
  let s := { s with mem := s.mem.writeN (0x6840 + 0xF0) 4 3760063599 }
  let p := { part1 with spec := { spec1 with rects := [0x8000FF00] } }
  let x : Admitted := { ctx := 0, va := 0x800, pa := 0x6800, len := 0x138, script := false, emitted := [], pages := [6] }
  let s := [255, 287, 303].foldl (fun (s : State) n => s.updTile (tileAt n) fun t => { t with tag := some 0 }) s
  { s with sch := { s.sch with parts := [p], admitted := [x] } }

/-- The place of that image, with eight wing banks. -/
def place0 : Placement :=
  { die := 0, x0 := 15, y0 := 15, w := 1, h := 1, image := 0x800, entry := 0x104, data := 0x1000, bsel := false, slot := 3, banks := [],
    wings := (List.range 8).map (· + 248), tensors := [], channels := [] }

/-- A launch of it that asks for eight wing banks. -/
def launch8 (st : LaunchSt) : Launch := { launch0 st with wing := 8 }

/-- What a launch needs can be read, and is nothing but its image. -/
def needsB (s : State) (l : Launch) : Option Needs :=
  match readNeeds s l with
  | .got n s' => if s' = s then some n else none
  | _ => none

theorem wit_LaunchAdmitted :
    let s := launches [launch8 .waiting] image0
    let n : Needs := { pa := 0x6800, pages := [6], relocs := [], binds := [], bars := [] }
    s.launch? 3 = some (launch8 .waiting) ∧ s.deviceRuns 0 = true ∧ launchFieldFault (launch8 .waiting) = none ∧
    needsB s (launch8 .waiting) = some n ∧ (activateFloor s 0).isSome = true ∧ s.presentLaunch (launch8 .waiting) n [place0] = (none, s) ∧
    regionsOf (n.mem s) n.pa = 1 ∧ firstOfShape s (launch8 .waiting) [place0] = true ∧ rectTurn s (launch8 .waiting) [place0] = true ∧
    needsFree s (launch8 .waiting) n [place0] = true ∧
    placeOk s (launch8 .waiting) n [place0] 0 place0 = true ∧ routesFit s 0 n [place0] 0 place0 = true ∧ apart [place0] = true ∧ bankExcess s (launch8 .waiting) [place0] = none ∧
    banksOk s (launch8 .waiting) [place0] = true := by decide +kernel

/-- An image that is not admitted and whose words are all zero is refused with 0x37 and no ARG (R254, R337). -/
theorem wit_LaunchFails :
    let s := launches [launch8 .waiting] at0
    let n : Needs := { pa := 0x6800, pages := [6], relocs := [], binds := [], bars := [] }
    (s.presentLaunch (launch8 .waiting) n [place0]).1 = some (0x37, 0xFFF) ∧ (launch8 .waiting).node = none ∧ (launch8 .waiting).queues = [] ∧
    s.deviceRuns 0 = true ∧ needsB s (launch8 .waiting) = some n ∧ (activateFloor s 0).isSome = true ∧
    firstOfShape s (launch8 .waiting) [] = true ∧ rectTurn s (launch8 .waiting) [] = true ∧ needsFree s (launch8 .waiting) n [] = true := by decide +kernel

/-- The launch placed; it waits for a port tile of its region, for which the image has no block, and for some others. -/
def placed0 (more : List TileId) : State :=
  launches [{ launch8 .placing with places := [place0], awaiting := tileAt 303 :: more, stamp := 2 }] image0

/-- That tile takes its blocks. -/
def takesB (s : State) : Bool :=
  match s.launch? 3 with
  | some l => l.state == .placing && (placePa s 0 place0 == some 0x6800) && placeOf l (tileAt 303) == some (0, place0) &&
    tileGiven s l (tileAt 303) && (let m := s.imageMem 0x6800
    (offerAll m (mpsOf m (imageBlocks m 0x6800) 303) (tileAt 303) ((imageBlocks m 0x6800).filter fun a => hdTile (m.dbl a) == 303) s).1.1 == 0)
  | none => false

theorem wit_TileAcknowledged : takesB (placed0 []) = true ∧ takesB (placed0 [tileAt 255]) = true := by decide +kernel

/-- A node of a kind, of stamp 2, whose payload stands at 0x400. -/
def node2 (kind : Nat) : GNode :=
  { kind := kind, npred := 0, succ := [], stamp := 2, payload := 0x400, opers := [], preds := 0, dispatched := false, completed := false,
    result := none, launch := none, chainLeft := 0 }

/-- A graph of context 0. -/
def graph0 (ns : List GNode) : Graph :=
  { id := 9, ctx := 0, done := 0x3E0, phase := 0, job := 0, nodes := ns, count := ns.length, cancelling := false, cancelAt := none, worst := 1, code := 0,
    arg := 0 }

/-- `at0` with a graph of one node, whose act has left its task behind; its payload, and what that names at 0x500. -/
def dag0 (ns : List GNode) (payload more : List Nat) : State :=
  let s := ctxIs (fun c => { c with tasks := [], reserved := [2], highest := 2 }) at0
  let s := s.updAct 0 fun a => { a with taskOpen := false, prevStamp := 2 }
  let s := s.updQueue (.ctx 0 63) fun x => { x with server := some (.copy 0) }
  words 0x6400 payload (words 0x6500 more { s with sch := { s.sch with graphs := [graph0 ns] } })

/-- The node of `dag0` may be dispatched. -/
def readyB (kind : Nat) (payload : List Nat) : Bool :=
  let s := dag0 [node2 kind] payload []
  nodeReady s (graph0 [node2 kind]) (node2 kind) && lowestReady s (graph0 [node2 kind]) (node2 kind) && s.deviceRuns 0
    && s.graph? 9 == some (graph0 [node2 kind]) && match readPair s 0 0x400 with
      | .got p s' => s' == s && p == (BitVec.ofNat 64 ((payload[0]?).getD 0), BitVec.ofNat 64 ((payload[1]?).getD 0))
      | _ => false

theorem wit_NodesDispatched :
    (readyB 1 launchRec = true ∧ launchClean (launchRec.map (BitVec.ofNat 64 ·)) = true) ∧
    (readyB 2 [0x500, 1 + 63 * 2 ^ 32] = true ∧ ((dag0 [] [] []).ctx 0).qmask.getLsbD 63 = true ∧
      (dag0 [] [] []).bound (.ctx 0 63) = true ∧ ((dag0 [] [] []).queue (.ctx 0 63)).chain = none) ∧
    readyB 3 [1, 0x500] = true ∧ readyB 3 [4, 0x500] = true := by decide +kernel

/-- A function that has returned and a node that waits for it. -/
def ended0 : GNode := { node2 3 with dispatched := true, result := some (0, 0), succ := [1] }

theorem wit_NodeCompletes :
    let s := dag0 [ended0, { node2 1 with npred := 1, stamp := 3 }] [] []
    (s.graph? 9).map (·.count) = some 2 ∧ nodeOutcome s ended0 = some (1, 0, 0) ∧ s.node? 9 0 = some ended0 ∧
    (s.node? 9 1).isSome = true := by decide +kernel

/-- A function node that has been dispatched, its FUNC, and what its ARG names at 0x500. -/
def call0 (func : Nat) (arg : Nat) (more : List Nat) : State := dag0 [{ node2 3 with dispatched := true }] [func, arg] more

/-- A call of a function. -/
def callsB (func arg : Nat) (more : List Nat) : Bool :=
  let s := call0 func arg more
  s.node? 9 0 == some { node2 3 with dispatched := true } && match readPair s 0 0x400 with
    | .got p s' => s' == s && p == (BitVec.ofNat 64 func, BitVec.ofNat 64 arg)
    | _ => false

theorem wit_FunctionsRun :
    (callsB 1 0x500 [0, 4096] = true ∧ (match prefaultPages 0 1 0 true (call0 1 0x500 [0, 4096]) with
      | .got b _ => b
      | _ => false) = true) ∧
    (callsB 2 0x500 [0xFF7, 9, 0xFFC] = true ∧ (match readBytes 0 9 0xFF7 [] (call0 2 0x500 [0xFF7, 9, 0xFFC]) with
      | .got l s => l.length == 9 && s == call0 2 0x500 [0xFF7, 9, 0xFFC]
      | _ => false) = true) ∧
    (callsB 3 63 [] = true ∧ ((call0 3 63 []).ctx 0).qmask.getLsbD 63 = true) ∧ callsB 4 0x500 [0xFF8, 7] = true := by decide +kernel

/-- Virtual addresses 0xFF8 on of context 0 lie from 0x6FF8 on, whatever is stored there, and links lead there. -/
theorem wit_Maps : at0.ctl.late = [] ∧ ∀ i < 8, translateCtl at0 0 (0xFF8 + BitVec.ofNat 64 i) .write = .ok (0x6FF8 + i) ∧
    at0.served (0x6FF8 + i) = true := by decide +kernel

/-- A virtual device of context 0, and `at0` with it and a child of portion 100 that owes 30. -/
def vdev0 (c : Nat) : VDev :=
  { ctx := c, part := 0, quantum := 4, debt := 0, period := 100, periodEnd := 0, vf := none, traceRing := 0, traceMask := 0, lost := 0 }
def period0 : State :=
  let s := child fun c => { c with depth := 2, portion := 100, balance := -30 }
  { s with sch := { s.sch with vdevs := [vdev0 0] } }

theorem wit_PeriodsEnd :
    period0.sch.vdevs.find? (·.ctx == 0) = some (vdev0 0) ∧ (vdev0 0).periodEnd ≤ period0.cycle ∧
    (assoc? 1 period0.ctxs).map (fun c => (c.id, c.depth)) = some (1, 2) ∧ period0.inSubtree 0 1 = true := by decide +kernel

/-- `at0` in a partition that two devices share, the first of which has the quantum. -/
def quanta0 (p : Partition) : State := { at0 with sch := { at0.sch with parts := [p], vdevs := [vdev0 0, vdev0 5] } }

theorem wit_QuantaEnd :
    ((quanta0 part1).part? 0 = some part1 ∧ 1 < ((quanta0 part1).devicesOf 0).length ∧
      nextDevice ((quanta0 part1).devicesOf 0) part1.running = some (vdev0 5) ∧ part1.switching = false ∧
      part1.quantumEnd ≤ (quanta0 part1).cycle ∧ (quanta0 part1).acts.map (·.1) = [0] ∧ (quanta0 part1).unplaced = [] ∧
      ((quanta0 part1).act 0).curtain = none ∧ (quanta0 part1).rootOf ((quanta0 part1).act 0).ctx = part1.running) ∧
    (let s := (quanta0 { part1 with switching := true }).updAct 0 fun a => { a with life := .switchedOut }
     nextDevice (s.devicesOf 0) 0 = some (vdev0 5) ∧ part1.nextStart ≤ s.cycle) := by decide +kernel

/-- `at0` with a reflection ring at 0x600 of its context, with room, and a record held for it, or for its partition. -/
def held0 (mine : Bool) : State :=
  let bs : List Byte := List.replicate 32 1
  let s := words 0x6600 [if mine then 0x700 else 0x6700, 1, 0, 0]
    (ctxIs (fun c => { c with rring := 0x600, evb := 15, held := if mine then [bs] else [] }) at0)
  { s with sch := { s.sch with parts := [{ part1 with spec := { spec1 with ring := 0x6600 }, held := if mine then [] else [bs] }] } }

theorem wit_HeldRecordsPlaced :
    (((held0 true).ctx 0).held = [List.replicate 32 1] ∧
      (ringPutCtx (held0 true) 0 ((held0 true).ctx 0).rring 5 (List.replicate 32 1)).isSome = true) ∧
    (((held0 false).ctx 0).held = [] ∧ ((held0 false).part? 0).map (·.held) = some [List.replicate 32 1] ∧
      (ringPutPhys (held0 false) 0x6600 5 (List.replicate 32 1)).isSome = true) := by decide +kernel

end Sys2Proof.Tests

namespace Sys2Proof.Tests
open Sys2Proof Machine Claims
set_option Elab.async false

/-! ## Management cores -/

/-- `at0` with the core that moves changed: core `k` of CDW, released. -/
def coreIs (k : Fin 8) (f : Core → Core) : State :=
  { at0.updCore 0 k (fun c => f { c with held := false }) with ci := k, focus := .core }

/-- Register x10 of core 0 as given. -/
def x10 (v : Dbl) : State := coreIs 0 fun c => c.writeX 10 v

theorem wit_BitFields : at0.core.machineMode = true ∧ (0 : BitVec 6).toNat + (63 : BitVec 6).toNat < 64 ∧
    64 ≤ (1 : BitVec 6).toNat + (63 : BitVec 6).toNat := by decide +kernel

/-- A ring of 16 entries of 64 bytes at physical 0x6100, its HEAD at 15, with `n` entries. -/
def xring (n : Nat) : State := words 0x6100 [0x8000, 4, 15, 15 + n] (x10 0x6100)

theorem wit_EntriesFetched :
    ((xring 0).core.machineMode = true ∧ (xring 0).core.readX 10 = 0x6100 ∧ populated 0x6100 = true ∧
      (xring 0).controlReaches (xring 0).cd 0x6100 = true ∧ ringBad (xring 0).mem 0x6100 = false ∧
      (xring 0).mem.readN 0x6110 8 = (xring 0).mem.readN 0x6118 8) ∧
    (ringBad (xring 16).mem 0x6100 = false ∧ (xring 16).mem.readN 0x6110 8 ≠ (xring 16).mem.readN 0x6118 8) ∧
    (((x10 0x6110).core.readX 10).toNat % 32 ≠ 0) ∧
    (populated 0x6100 = true ∧ ringBad (xring 17).mem 0x6100 = true) ∧
    (isXalholtInstr (.disp 1 2) = true ∧ (coreIs 0 fun c => { c with machineMode := false }).core.machineMode = false) ∧
    MemOk (xring 16) := by unfold MemOk; decide +kernel

/-- Core 6 with a mask in x10, a limit in x11 and some signals pending. -/
def sig0 (m l p : Dbl) : State := coreIs 6 fun c => { (c.writeX 10 m).writeX 11 l with pending := p }

/-- A core that waits for bit 15 in core 7, or for cycle 9. -/
def wait0 (p : Dbl) (n : Nat) : State :=
  coreIs 7 fun c => { c with pending := p, mcycle := n, waiting := some { mask := 0x8000, rd := 5, deadline := some 9 } }

theorem wit_SignalsAndTimers :
    ((sig0 0xDE00 0 0x8000).core.machineMode = true ∧
      (∀ b < 64, ((sig0 0xDE00 0 0x8000).core.readX 10).getLsbD b = true → routedTo b (roleOf (sig0 0xDE00 0 0x8000).ci) = true) ∧
      (sig0 0xDE00 0 0x8000).core.pending &&& 0xDE00 ≠ 0) ∧
    (sig0 0 1 0x8000).core.pending &&& (sig0 0 1 0x8000).core.readX 10 = 0 ∧
    (((sig0 0x2000 0 0).core.readX 10).getLsbD 13 = true ∧ routedTo 13 (roleOf (sig0 0x2000 0 0).ci) = false) ∧
    ((sig0 0 0 0).core.readX 10 = 0 ∧ (sig0 0 0 0).core.readX 11 = 0) ∧
    ((wait0 0x8000 0).coreAlive 0 7 = true ∧ ((wait0 0x8000 0).mcore 0 7).pending &&& 0x8000 ≠ 0) ∧
    ((wait0 0 9).coreAlive 0 7 = true ∧ ((wait0 0 9).mcore 0 7).waiting = some { mask := 0x8000, rd := 5, deadline := some 9 } ∧
      ((wait0 0 9).mcore 0 7).pending &&& 0x8000 = 0 ∧ 9 ≤ ((wait0 0 9).mcore 0 7).mcycle) ∧
    ((wait0 0 9).mcore 0 7).machineMode = true ∧
    (let s := coreIs 7 fun c => { c with xtimecmp := 9, mcycle := 9 }
     (s.mcore 0 7).xtimecmp ≠ 0 ∧ (s.mcore 0 7).xtimecmp.toNat ≤ (s.mcore 0 7).mcycle) := by decide +kernel

/-- The block of a dispatch at physical 0x6400: its first double, rectangle, address and argument. -/
def block0 (w rect addr arg : Nat) (s : State) : State := words 0x6400 [w, rect, addr, arg] s

/-- A START of act slot 3 of block 15 of die 0 for context 0, in the rectangle of the last tile. -/
def startWord : Nat := 15 * 2 ^ 6 + 3 * 2 ^ 10

theorem wit_DispatchesPlaced :
    (let s := block0 startWord 0x8000FF00 0x107 9 (x10 0x6400)
     s.core.machineMode = true ∧ (s.core.readX 10).toNat % 64 = 0 ∧ populated 0x6400 = true ∧ s.controlReaches s.cd 0x6400 = true ∧
      dispatchOk s.mem 0x6400 = true ∧ rectHeld s (dispatchAt s.mem 0x6400) = false ∧ s.joinsFabric s.cd = true) ∧
    (((x10 0x6420).core.readX 10).toNat % 64 ≠ 0) ∧
    (let s := block0 4 0x8000FF00 0x107 9 (x10 0x6400)
     populated 0x6400 = true ∧ dispatchOk s.mem 0x6400 = false) := by decide +kernel

/-- A dispatch placed by core 7 of CDE. -/
def placed1 (x : Dispatch) (s : State) : State := s.updCore 1 7 fun c => { c with dispatches := [x] }

/-- A dispatch for the last tile, and one for the tile of act 0. -/
def start0 : Dispatch := { kind := 0, die := 0, blk := 15, slot := 3, ctx := 0, rect := 0x8000FF00, addr := 0x107, arg := 9 }
def curt0 : Dispatch := { kind := 1, die := 0, blk := 0, slot := 0, ctx := 0, rect := 0x80000000, addr := 0x9000, arg := 0 }

/-- `at0` with its act saved in a green room for which its partition has no memory, its context holding a key. -/
def saved0 : State :=
  let s := (at0.giveKey 0).updAct 0 fun a => { a with curtain := some (run0 0) }
  let s := [0, 256, 304].foldl (fun (s : State) n => s.updTile (tileAt n) fun t => { t with tag := some 0 }) s
  match exec (.curtainComplete 0) s with
  | .next t => t
  | _ => s

theorem wit_DispatchesTake :
    (let s := placed1 start0 image0
     Placed s 1 7 start0 ∧ contextFree s start0.id = true ∧ boxEmpty s start0 = true ∧ s.ctl.sec.quiesced = false ∧
      s.joinsFabric 1 = true ∧ startHeld s start0 = true ∧ s.wingsReady start0.ctx start0.die = true) ∧
    (Placed (placed1 curt0 at0) 1 7 curt0 ∧ ((placed1 curt0 at0).act curt0.id).present = true ∧
      ((placed1 curt0 at0).act curt0.id).curtain = none) := by unfold Placed; decide +kernel

/-- `at0` with the links of CDW to the fabric down. -/
def alone0 : State := { at0 with ctl := { at0.ctl with linksDown := [(8, 0), (8, 4)] } }

theorem wit_DispatchesHeld : (at0.core.readX 0).toNat % 64 = 0 ∧ populated 0 = true ∧ (at0.updSec fun x => { x with quiesced := true }).ctl.sec.quiesced = true ∧ alone0.joinsFabric 0 = false := by
  decide +kernel

theorem wit_DispatchRestores :
    let x := { curt0 with kind := 2, addr := 0 }
    let s := placed1 x saved0
    Placed s 1 7 x ∧ ∃ g, roomOf s x = some g ∧ s.greenOf x.id = some g ∧ g.act.id = x.id ∧ s.ctl.sec.quiesced = false ∧
      s.mayPlace x.id x.box.x0 x.box.y0 = true ∧ (s.roomFault g (s.act x.id).ctx).isNone = true ∧ s.joinsFabric 1 = true := by
  unfold Placed
  exact ⟨by decide +kernel, _, rfl, rfl, by decide +kernel⟩

/-- A chain dispatch for the node of `dag0`. -/
def chain1 : Dispatch := { kind := 3, die := 0, blk := 0, slot := 0, ctx := 0, rect := 0x80000000, addr := 0x400, arg := 63 }

theorem wit_DispatchChains :
    let s := placed1 chain1 (dag0 [node2 2] [0x500, 1 + 63 * 2 ^ 32] [])
    Placed s 1 7 chain1 ∧ s.ctl.sec.quiesced = false ∧ (chainNode s chain1).map (fun x => (x.1.id, x.2.1)) = some (9, 0) ∧
    (match readPair s 0 chain1.addr with
      | .got p s' => s' == s && p == (0x500, 0x3F00000001)
      | _ => false) = true ∧
    (s.ctx 0).qmask.getLsbD (bits chain1.arg 0 6) = true ∧ s.bound (.ctx 0 63) = true ∧ (s.queue (.ctx 0 63)).chain = none ∧
    (s.queue (.ctx 0 63)).node = none ∧ (s.queue (.ctx 0 63)).state ≠ 2 := by unfold Placed; decide +kernel

/-! ## Control dies, security, ports -/

/-- `at0` at the second 100 µs boundary, with the firmware of both control dies released. -/
def beat1 (f : CDie → CDie) : State :=
  { (at0.updCore 0 0 fun c => { c with held := false }).updCDie 0 f with cycle := 230000 }

theorem wit_HeartsBeat :
    (AtBeat (beat1 id) 0 1 ∧ ((beat1 id).cdie 0).sent ≤ 1) ∧
    ({ at0 with ctl := { at0.ctl with beats := [(1, 0, 0)] } } : State).ctl.beats.find? (fun b => b.1 == (1 : Fin 2).val) = some (1, 0, 0) ∧
    (AtBeat (beat1 fun d => { d with beat := true }) 0 1 ∧ ((beat1 fun d => { d with beat := true }).cdie 0).checked < 1) ∧
    (((beat1 id).cdie 0).beat = false ∧ ((beat1 id).cdie 0).misses ≠ 2) := by unfold AtBeat; decide +kernel

/-- `at0` with a fence of die 4 from CDE's hold, ending at cycle 5, at that cycle. -/
def heldFence (l : List (Nat × Nat)) : State :=
  { at0 with cycle := 5, ctl := { at0.ctl with heldFences := [(4, 5)], fences := l } }

theorem wit_DiesTakenOver :
    (AtBeat (beat1 fun d => { d with misses := 2 }) 0 1 ∧ ((beat1 fun d => { d with misses := 2 }).cdie 0).misses = 2 ∧
      ((beat1 fun d => { d with misses := 2 }).cdie 0).understudy = false ∧ fenceable (beat1 fun d => { d with misses := 2 }) 0 ≠ [] ∧
      fenceable (beat1 id) 1 ≠ []) ∧
    ((heldFence []).ctl.heldFences.find? (fun f => f.1 == 4) = some (4, 5) ∧ (∀ x ∈ (heldFence []).ctl.fences, x.2 ≠ 9) ∧
      5 ≤ (heldFence []).cycle) ∧
    (∃ x ∈ (heldFence [(3, 9)]).ctl.fences, x.2 = 9) ∧
    (let s := (at0.updCDie 1 fun d => { d with understudy := true })
     let s : State := { s with ctl := { s.ctl with fences := [(3, 8)] } }
     (s.cdie 1).understudy = true ∧ (s.cdie 1).adopted = false ∧ (3, 8 + (peerOf 1).val) ∈ s.ctl.fences) := by
  unfold AtBeat; decide +kernel

theorem wit_RequestsTaken :
    ((bell0 0 0).part? 0 = some part1 ∧ (7 : Nat) < 8 ∧ sharesBeside (bell0 0 0) 0 7 + 256 ≤ 256) ∧ at0.ctl.bell.holdover = false ∧
    ({ at0 with ctl := { at0.ctl with bell := { at0.ctl.bell with holdover := true } } } : State).ctl.bell.holdover = true := by
  decide +kernel

/-- `at0` with a power ring of CDW at physical 0x6600 of `n` entries. -/
def power0 (n : Nat) : State := words 0x6600 [0x6700, 1, 0, n] (at0.updCDie 0 fun d => { d with powerRing := 0x6600 })

theorem wit_PowerRing :
    ((power0 0).cdie (Fin.ofNat 2 (power0 0).ctl.power.master)).powerRing = 0x6600 ∧
    (power0 0).mem.readN (0x6600 + 24) 8 = (power0 0).mem.readN (0x6600 + 16) 8 ∧
    (ringPutPhys (power0 0) 0x6600 4 (leBytes 8 1 ++ leBytes 8 90000)).isSome = true ∧
    (ringPutPhys (power0 2) 0x6600 4 []).isSome = false ∧ (at0.updSec fun x => { x with locked := true }).ctl.sec.locked = true := by
  decide +kernel

/-- `at0` with its security state changed. -/
def secIs (f : Security → Security) : State := at0.updSec f

/-- Whether a given request carries a good signature is for the opaque functions of Config to say; without keys none does. -/
theorem wit_AlarmsRaised :
    at0.ctl.sec.locked = false ∧ (at0.ctl.sec.lastGlitch = none ∧ at0.ctl.sec.quiesced = false) ∧
    ({ (secIs fun x => { x with lastGlitch := some 0 }) with cycle := 2300000001 } : State).ctl.sec.lastGlitch = some 0 ∧
    (2300000000 : Nat) ≤ 0 + 2300000000 ∧
    (let s := secIs fun x => { x with quiesced := true, keys := [] }
     s.ctl.sec.quiesced = true ∧ s.ctl.sec.locked = false ∧ signedOk s.ctl.sec [] = false ∧ s.sch.green = []) := by
  refine ⟨by decide, by decide, by decide, by decide, ?_⟩
  refine ⟨by decide, by decide, ?_, by decide⟩
  simp [signedOk, sigVerifies, secIs, State.updSec]

theorem wit_SecurityEventsComplete :
    (at0.ctl.sec.locked = false ∧ at0.ctl.sec.lastGlitch = none ∧ at0.ctl.sec.quiesced = false) ∧
    (let s : State := { (secIs fun x => { x with lastGlitch := some 0 }) with cycle := 2300000000 }
     s.ctl.sec.locked = false ∧ s.ctl.sec.lastGlitch = some 0 ∧ s.cycle ≤ 0 + 2300000000) ∧
    signedOk (secIs fun x => { x with keys := [] }).ctl.sec [] = false ∧ (0 : BitVec 8) ≠ 0xFF := by
  refine ⟨by decide, by decide, ?_, by decide⟩
  simp [signedOk, sigVerifies, secIs, State.updSec]

theorem wit_CoresComplete :
    (let s := xring 0
     s.core.machineMode = true ∧ s.core.readX 10 = 0x6100 ∧ s.controlReaches s.cd 0x6100 = true ∧ ringBad s.mem 0x6100 = false) ∧
    (let s := sig0 0x8000 0 0x8000
     s.core.machineMode = true ∧ s.core.pending &&& s.core.readX 10 ≠ 0 ∧
      ∀ b < 64, (s.core.readX 10).getLsbD b = true → routedTo b (roleOf s.ci) = true) ∧
    ((wait0 0x8000 0).coreAlive 0 7 = true ∧ ((wait0 0x8000 0).mcore 0 7).waiting = some { mask := 0x8000, rd := 5, deadline := some 9 }) ∧
    (let s := placed1 start0 image0
     Placed s 1 7 start0 ∧ contextFree s start0.id = true ∧ s.ctl.sec.quiesced = false ∧ startHeld s start0 = true ∧
      s.wingsReady start0.ctx start0.die = true) ∧
    (at0.updCore 0 7 fun c => { c with held := false }).securityAlive (at0.updCore 0 7 fun c => { c with held := false }).leader = true := by
  unfold Placed; decide +kernel

theorem wit_KeysAndAttestation :
    ((at0.updCore 0 7 fun c => { c with held := false }).securityAlive ((at0.updCore 0 7 fun c => { c with held := false }).responder true) = true ∧
      at0.securityAlive 1 = false) ∧
    (7 : Nat) < 8 ∧ (∀ k ∈ at0.ctl.sec.keys, ¬(k.lms = true ∧ k.slot = 7)) ∧ (spdmOf at0 (.challenge true [])).isSome = true ∧
    at0.spdmReaches true = true ∧ at0.spdmReaches false = false := by
  refine ⟨by decide +kernel, by decide, by decide, rfl, by decide, by decide⟩

/-- `at0` with a die's configuration rings at physical 0x6600 and 0x6620, and one request there. -/
def config0 (w0 w1 w2 : Nat) : State :=
  let s := words 0x6700 [w0, w1, w2, 0] (words 0x6600 [0x6700, 0, 0, 1, 0x6780, 0, 0, 0] at0)
  { s with ctl := { s.ctl with configRings := s.ctl.configRings.set 0 (0x6600, 0x6620) } }

/-- A load of slot 3 of act 0 that waits, of the image at virtual address 0x800. -/
def loads0 (s : State) : State :=
  s.updAct 0 fun a => a.updSlot 3 fun sl => { sl with st := .loading, job := some { image := 0x800, no := 4, begun := false } }

/-- A run of the loader routine that has ended with a code. -/
def runs0 (code : Nat) : State :=
  let r : LoadRun :=
    { die := 0, act := 0, slot := 3, no := 4, image := 0x6800, off := 0, left := 0, tag := 0, tile := 5, phase := .done, code := code, dead := false }
  let s := loads0 at0
  { s with ctl := { s.ctl with loads := [r] } }

/-- `at0` with its act's own image admitted, of one block for its tile, and configuration rings. -/
def ownImage : State :=
  let s := words 0x6800 [0xA901000000010000, 0xF8] (config0 0 0 0)
  loads0 { s with sch := { s.sch with admitted := [{ ctx := 0, va := 0x800, pa := 0x6800, len := 0x138, script := false, emitted := [], pages := [6] }] } }

theorem wit_LoadsRun :
    (loads0 at0).ctl.loads = [] ∧ (((loads0 at0).act 0).slot 3).job = some { image := 0x800, no := 4, begun := false } ∧
    ((loads0 at0).act 0).present = true ∧
    (match loadImage (loads0 at0) ((loads0 at0).act 0) 0x800 with
      | .error e => e == 0x37
      | .ok _ => false) = true ∧
    ((match loadImage ownImage (ownImage.act 0) 0x800 with
      | .error _ => 0
      | .ok pa => pa) = 0x6800 ∧ (ownImage.ctl.configRings[(0 : Nat)]!).1 ≠ 0 ∧ ownImage.ctl.loads = []) := by decide +kernel

theorem wit_ConfigRequests :
    (let s := config0 (3 * 2 ^ 2 + 7 * 2 ^ 16) 0x8000FF00 0
     configRequest s 0 = some (0x7000C, 0x8000FF00, 0, 0) ∧ configBad 0x7000C 0 = false ∧ s.staleRun 0 = false ∧ rectFits 0x8000FF00 = true ∧
      s.deadRun 0 = false ∧
      ∀ t ∈ (rectRegion 0 0x8000FF00).tiles, s.tileHolds t 3 = false) ∧
    (let s := config0 (1 + 3 * 2 ^ 2 + 319 * 2 ^ 4 + 7 * 2 ^ 16) 0x6840 0x0F8
     (configRequest s 0).isSome = true ∧ configBad 0x713FD 0 = false ∧ s.deadRun 0 = false ∧ s.tileHolds (tileAt 319) 3 = false ∧
      3 < (s.tile (tileAt 319)).cfg.length) ∧
    ∀ c : Fin 2, (runs0 c).ctl.loads.find? (fun r => r.act == 0 && r.slot == 3 && r.phase == .done) = (runs0 c).ctl.loads.head? ∧
      (((runs0 c).act 0).slot 3).job = some { image := 0x800, no := 4, begun := false } := by decide +kernel

/-- An image presented, in a quiesce too; a verify ring with one entry; a relocation block, and its answer. -/
theorem wit_ImagesChecked :
    (translateCtl (at0.signal 4) 0 0x800 .read = .ok 0x6800 ∧ relocatable at0.mem 0x6800 = false ∧ (0x6800 : Nat) ∉ ([] : List Nat) ∧
      (((secIs fun x => { x with quiesced := true }).signal 4).checkImage [6] 0x6800 []).1 = some (0x37, 0xFFF) ∧
      (at0.signal 4).imagePages 0 0x800 0x6800 = some [6]) ∧
    (let s := words 0x6600 [0x6700, 0, 0, 1] (words 0x6700 [0x6800, 64, 0x6F00, 0]
       ((at0.updCore 0 7 fun c => { c with held := false }).updCDie 0 fun d => { d with verifyRings := [(2, 0x6600)] }))
     MemOk s ∧ s.securityAlive 0 = true ∧ Near s 0 0x6600 ∧ Near s 0 0x6700 ∧ Near s 0 0x6800 ∧ Near s 0 0x6F00 ∧ tally 2 (s.cdie 0).verifyRings = 0x6600 ∧ ringHead s.mem 0x6600 = some 0x6700 ∧ s.ctl.sec.quiesced = false) ∧
    (let s := words 0x6600 [0x6800, 0x6900, 0, 0, 0, 0x6500, 0x6F00, 0] (words 0x6500 [0x6700, 0, 0, 0] at0)
     populated 0x6600 = true ∧ s.mem.readN 0x6600 8 = 0x6800 ∧ s.mem.readN 0x6608 8 = 0x6900 ∧ s.mem.readN 0x6630 8 = 0x6F00 ∧
      s.ctl.relocs = [] ∧ (ringPutPhys (s.store 0x6F00 8 0) 0x6500 5 (List.replicate 32 0)).isSome = true) ∧
    (let s := words 0x6F00 [2 ^ 63 + 0x37] (words 0x6600 [0x6800, 0x6900, 0, 0, 0, 0x6500, 0x6F00, 0] at0)
     2 ^ 63 ≤ s.mem.readN 0x6F00 8 ∧ relocReach s (Fin.ofNat 2 0) 0x6600 = true ∧ (s.cdie (Fin.ofNat 2 0)).failed = false) ∧
    ((coreIs 2 id).mcore 0 2).held = false := by
  unfold MemOk Near; decide +kernel

/-- No image is offered at a boot whose minimum SVN is 1: each security core's is refused, and no failure counted (R419, R420). -/
theorem wit_ResetsReset :
    (let x := { at0.ctl.sec with svn := [(4, 1)] }
     bootRefusals x [] 0 ++ bootRefusals x [] 1 = [(0, 7, false), (1, 7, false)]) ∧ at0.ctl.sec.locked = false ∧
    (at0.updSec fun x => { x with locked := true }).ctl.sec.locked = true := by decide +kernel

theorem wit_ScrubsFind :
    scrubDie (.bank 7 511 4095) = 7 ∧ exec (.scrub (.bank 7 511 4095) .clean) at0 = .next at0 := ⟨by decide +kernel, rfl⟩

/-- An attached host, and a virtual device of context 0 that is function 1024. -/
def host0 : State :=
  { at0 with ctl := { at0.ctl with hostAttached := true }, sch := { at0.sch with vdevs := [{ vdev0 0 with vf := some 1024 }] } }

theorem wit_PortsAndLinks :
    (at0.ctl.sec.quiesced = false ∧ at0.ctl.sec.locked = false ∧ (List.replicate 9216 (0 : Byte)).length ≤ 9216 ∧ at0.cdFailed (7 / 4) = false) ∧
    (8 ∈ joined 0 ∧ 7 ∈ joined 9) ∧ ((0, 8) ∉ at0.ctl.fences ∧ (8, 0) ∉ at0.ctl.fences) ∧
    (host0.ctl.hostAttached = true ∧ host0.ctl.hostUp = true ∧ host0.cdFailed 0 = false ∧ hostMay host0 1024 0xFFF8 8 = true ∧
      populated 0xFFF8 = true ∧ populated 0xFFFF = true ∧ host0.fencedMem 0xFFF8 = false ∧
      host0.controlReaches 0 0xFFF8 = true ∧ host0.ctl.late = []) ∧
    (let s : State := { host0 with ctl := { host0.ctl with linksDown := [(0, 1), (4, 5)] } }
     hostMay s 0 (9 * 2 ^ 40) 8 = true ∧ populated (9 * 2 ^ 40) = true ∧ populated (9 * 2 ^ 40 + 8 - 1) = true ∧
      s.fencedMem (9 * 2 ^ 40) = false ∧ s.controlReaches 0 (9 * 2 ^ 40) = false) ∧
    (populated (10 * 2 ^ 40) = false ∧ hostMay host0 0 (10 * 2 ^ 40) 8 = true) ∧
    hostMay host0 1024 0xFFF9 8 = false := by decide +kernel

/-- A partition on the last tile of die 0, with 64 KiB; a device descriptor for it. -/
def spec2 : PartSpec := { spec1 with rects := [0x8000FF00], base := 0x10000, length := 0x10000, ring := 0x6600, slotLen := 16, offset := 999999 }
def desc2 : List Byte := leBytes 8 0 ++ leBytes 8 0xF000 ++ List.replicate 112 0

theorem wit_PartitionsAndDevices :
    ((23 : Nat) < 24 ∧ changeTouched at0 ((at0.part? 23).map (·.spec)) (some spec2) = false ∧ partSpecOk spec2 = true ∧
      partsApart at0 23 spec2 = true ∧ at0.ctl.sec.locked = false ∧
      bellHeld at0 23 ((at0.part? 23).map (·.spec)) (some spec2) = false ∧ bellHeld at0 23 ((at0.part? 23).map (·.spec)) none = false) ∧
    (changeTouched at0 ((at0.part? 23).map (·.spec)) none = false ∧ ∀ v ∈ at0.sch.vdevs, v.part ≠ 23) ∧
    (let p := { part1 with id := 23, spec := spec2 }
     let s : State := { at0 with sch := { at0.sch with parts := [p] } }
     s.part? 23 = some p ∧ deviceOk s 4095 p desc2 1 1000 (some 1024) = true) := by decide +kernel

/-! ## Fetching and decoding -/

/-- The word of add g3, g3, g5 at the pc. -/
def fetch0 : State := State.reset.withFetchWord 32 0x00632800

/-- `at0` whose loop buffer holds that word. -/
def loopBuf0 : State :=
  (loopIs 1 3).updAct 0 fun a => { a with loopBuf := [(a.regs.acpc, 0x00632800)] }

theorem wit_StepRunsDecoded :
    ((fetch0.cur.life = .running ∧ fetch0.cur.leaving = false ∧ fetch0.agenda = [] ∧ fetch0.focus = .act) ∧ fetch0.cur.asyncTrap = [] ∧
      fetch0.cur.regs.looping = false ∧ fetch0.pageDown fetch0.cur.ctx fetch0.cur.regs.acpc = false ∧ (promptAccess fetch0 fetch0.cur.regs.acpc 4 .fetch).1 = .ok 0x6000 ∧
      (match decodeBytes (bytesAt fetch0.mem 0x6000) with
        | .ok (i, []) => i == .add 3 3 5 false false
        | _ => false) = true) ∧
    (loopBuf0.cur.regs.looping = true ∧ loopBuf0.cur.regs.faultH = false ∧ assoc? loopBuf0.cur.regs.acpc loopBuf0.cur.loopBuf = some 0x00632800 ∧
      loopBuf0.agenda = [] ∧ loopBuf0.focus = .act) ∧
    (let s := State.reset.withFetchWord 32 0x0005850B
     s.core.held = false ∧ s.core.waiting = none ∧ (s.cdie s.cd).failed = false ∧ s.agenda = [] ∧ s.focus = .core ∧
      s.controlReaches s.cd s.core.pc.toNat = true ∧ populated s.core.pc.toNat = true ∧
      bytesAt s.mem s.core.pc.toNat = [0x0B, 0x85, 0x05, 0x00]) ∧
    ({ at0 with agenda := [.act 0, .event .tamper] } : State).agenda = .act 0 :: [.event .tamper] := by decide +kernel

theorem wit_IllegalWords :
    (let s := State.reset.withFetchWord 32 0xFFFFFFFF
     s.cur.life = .running ∧ s.cur.leaving = false ∧ s.agenda = [] ∧ s.focus = .act ∧ s.cur.asyncTrap = [] ∧
      s.cur.regs.looping = false ∧ s.pageDown s.cur.ctx s.cur.regs.acpc = false ∧
      (promptAccess s s.cur.regs.acpc 4 .fetch).1 = .ok 0x6000) ∧
    (match decodeBytes (bytesAt (State.reset.withFetchWord 32 0xFFFFFFFF).mem 0x6000) with
      | .error _ => true
      | .ok _ => false) = true ∧
    (let s := State.reset.placeXalholt 0x0000700B
     s.core.held = false ∧ s.focus = .core ∧ s.controlReaches s.cd s.core.pc.toNat = true ∧ (0x0000700B : W32).toNat % 128 = 0x0B ∧ bytesAt s.mem s.core.pc.toNat = [0x0B, 0x70, 0, 0] ∧
      (match decodeXalholt 0x0000700B with
        | .error _ => true
        | .ok _ => false) = true) := by decide +kernel

theorem wit_EncodeDecode : (Instr.srai 31 31 63).wf = true ∧ (encode (.srai 31 31 63)).isSome = true ∧ (Instr.disp 31 31).wf = true ∧
    (encode (.disp 31 31)).isSome = true := by decide +kernel

theorem wit_StorageCanonical : StorageOk at0 ∧ (match step at0 with
    | .next _ => true
    | _ => false) = true := by unfold StorageOk MemOk BanksOk; decide +kernel

end Sys2Proof.Tests

namespace Sys2Proof.Tests
open Sys2Proof Machine Claims
set_option Elab.async false

/-! ## Words written out from R72 to R80 and R395 -/

/-- Every word of a list decodes to its instruction. -/
def reads (l : List (Nat × Instr)) : Bool := l.all fun p => decodeTableWord 32 p.1 == some p.2

/-- R75, R76: the ALU group; .s32 and .sat stand at bits 3 and 4. -/
theorem test_words_alu : reads [
  (0x0131D018, .add 9 17 26 true true), (0x0131D038, .sub 9 17 26 true true), (0x0131D040, .and 9 17 26), (0x0131D060, .or 9 17 26),
  (0x0131D080, .xor 9 17 26), (0x0131D0A8, .shl 9 17 26 true), (0x0131D0C8, .shr 9 17 26 true), (0x0131D0E8, .sra 9 17 26 true),
  (0x0131D118, .mul 9 17 26 true true), (0x0131D120, .mulh 9 17 26), (0x0131D140, .mulhz 9 17 26), (0x0131D160, .div 9 17 26),
  (0x0131D180, .divz 9 17 26), (0x0131D1A0, .rem 9 17 26), (0x0131D1C0, .remz 9 17 26), (0x0131D1E0, .min 9 17 26),
  (0x0131D200, .max 9 17 26), (0x0131D220, .minz 9 17 26), (0x0131D240, .maxz 9 17 26), (0x0131D260, .slt 9 17 26),
  (0x0131D280, .sltz 9 17 26), (0x0131D2A0, .seq 9 17 26), (0x0131D2C0, .sne 9 17 26), (0x013102E0, .clz 9 17),
  (0x01310300, .popc 9 17)] = true := by decide +kernel

/-- R75: the immediate forms. -/
theorem test_words_immediate : reads [
  (0x05318001, .addi 9 17 0x8001), (0x09318001, .andi 9 17 0x8001), (0x0D318001, .ori 9 17 0x8001), (0x11318001, .xori 9 17 0x8001),
  (0x19318001, .slti 9 17 0x8001), (0x15310021, .shli 9 17 33), (0x15314021, .shri 9 17 33), (0x15318021, .srai 9 17 33),
  (0x1D300001, .lui 9 0x100001)] = true := by decide +kernel

/-- R75: loads and stores. -/
theorem test_words_memory : reads [
  (0x2131FFF8, .ldb 9 17 0xFFF8), (0x2531FFF8, .ldh 9 17 0xFFF8), (0x2931FFF8, .ldw 9 17 0xFFF8), (0x2D31FFF8, .ldd 9 17 0xFFF8),
  (0x3131FFF8, .ldbz 9 17 0xFFF8), (0x3531FFF8, .ldhz 9 17 0xFFF8), (0x3931FFF8, .ldwz 9 17 0xFFF8), (0x4151FFF8, .stb 10 17 0xFFF8),
  (0x4551FFF8, .sth 10 17 0xFFF8), (0x4951FFF8, .stw 10 17 0xFFF8), (0x4D51FFF8, .std 10 17 0xFFF8), (0x5151FFF8, .stq 10 17 0xFFF8),
  (0x5551FFF8, .ldq 10 17 0xFFF8)] = true := by decide +kernel

/-- R73, R74, R77, R78: branches, jumps, loops and returns. -/
theorem test_words_flow : reads [
  (0x5811D402, .bEq 17 26 0x402), (0x5831D402, .bNe 17 26 0x402), (0x5851D402, .bLt 17 26 0x402), (0x5871D402, .bGe 17 26 0x402),
  (0x5891D402, .bLtz 17 26 0x402), (0x58B1D402, .bGez 17 26 0x402), (0x5FFFFFFF, .jal 31 0x1FFFFF), (0x63F1FFFC, .jr 31 17 0xFFFC),
  (0x6611FF00, .loop 2 17 255), (0x6AABCDFF, .loopi 2 0xABCD 255), (0x9800001F, .trap 31), (0x98000020, .eret),
  (0x98000040, .halt), (0x98110060, .wait 17)] = true := by decide +kernel

/-- R78: the SCENE group. -/
theorem test_words_scene : reads [
  (0x70000003, .sceneRun 3), (0x70110023, .sceneLoad 17 3), (0x70000043, .sceneWait 3), (0x70000063, .sceneSwap 3),
  (0x70110081, .sceneGate 17 true), (0x70110080, .sceneGate 17 false), (0x700000A0, .sceneCurt), (0x701100C0, .sceneMark 17)] = true := by decide +kernel

/-- R78: the CMD and FENCE groups. -/
theorem test_words_command : reads [
  (0x7411D018, .cmdPack 17 26 6), (0x7400003C, .cmdIssue 7), (0x7411005C, .cmdAppend 17 7), (0x7411D060, .cmdSeqw 17 26),
  (0x78110000, .fenceQ 17), (0x78000024, .fenceS 4)] = true := by decide +kernel

/-- R76: the AMO group, W at bit 4. -/
theorem test_words_atomic : reads [
  (0x7D31D010, .aadd 9 17 26 true), (0x7D31D030, .aand 9 17 26 true), (0x7D31D050, .aor 9 17 26 true), (0x7D31D070, .axor 9 17 26 true),
  (0x7D31D090, .amin 9 17 26 true), (0x7D31D0B0, .amax 9 17 26 true), (0x7D31D0D0, .aminz 9 17 26 true), (0x7D31D0F0, .amaxz 9 17 26 true),
  (0x7D31D110, .aswap 9 17 26 true), (0x7D31D130, .acas 9 17 26 true)] = true := by decide +kernel

/-- R78, R79: tasks, barriers, events and cues. -/
theorem test_words_task : reads [
  (0x80110000, .taskSpawn 17), (0x80110020, .taskStamp 17), (0x80000040, .taskDone), (0x8400001F, .barArrive 31),
  (0x8400003F, .barWait 31), (0x8400004F, .evtSig 15), (0x8400006F, .evtWait 15), (0x8411009F, .barInit 17 31),
  (0x8811D52C, .cue 17 26 0xA5 true)] = true := by decide +kernel

/-- R75: tensor identifiers and operand memory. -/
theorem test_words_resource : reads [
  (0x8C1100FF, .tidDef 17 255), (0x8C1140FF, .tidGet 17 255), (0x8C0080FF, .tidDrop 255), (0x9131D000, .opmClaim 9 17 26),
  (0x9131D020, .opmRelease 9 17 26)] = true := by decide +kernel

/-- R75, R78, R80: contexts, system registers and counters. -/
theorem test_words_context : reads [
  (0x95310000, .ctxNew 9 17), (0x9411D020, .ctxGrant 17 26), (0x94110040, .ctxRevoke 17), (0x94110060, .ctxEnter 17),
  (0x94000080, .ctxExit), (0x953100A0, .ctxStat 9 17), (0x9D200036, .mfs 9 0x36), (0xA0110030, .mts 17 0x30),
  (0xA520BEEF, .cnt 9 0xBEEF)] = true := by decide +kernel

/-- R73, R75 to R81: a set reserved bit, an unlisted sub-field, an odd pair register, a loop level of 3, an empty loop body and an
unlisted system register are refused. -/
theorem test_words_refused : [
  0x00221801, 0x00221850, 0x00221848, 0x00221AE0, 0x00221B20, 0x002218B0, 0x1422C000, 0x14220040, 0x3C000000, 0x51210000,
  0x55210000, 0x58C00000, 0x67000100, 0x64000000, 0x68000100, 0x64200100, 0x64000101, 0x6C000000, 0x700000E0, 0x70000004,
  0x70010000, 0x74000021, 0x74000080, 0x78000025, 0x7C221940, 0x7C221808, 0x80000060, 0x84000050, 0x840000A0, 0x88000001,
  0x88200000, 0x8C00C000, 0x8C018000, 0x8C010100, 0x90221840, 0x90221801, 0x940000C0, 0x98000080, 0x98000021, 0x9C200005,
  0x9C210000, 0xA0010015, 0xA0210030, 0xA4210000, 0xA8000000, 0xFC000000].all (fun w => (decodeTableWord 32 w).isNone) = true := by decide +kernel

/-- R395: the four Xalholt words. -/
theorem test_words_xalholt : reads [
  (0x0005850B, .rfetch 11 10), (0x0C86960B, .bfx 3 8 13 12), (0x0073228B, .swait 7 6 5), (0x0005B50B, .disp 11 10)] = true := by decide +kernel

/-! ## Ill-formed instructions, one per check -/

/-- R73, R75, R78, R80: control-stream operands outside their limits. -/
theorem test_illFormed_words : ([
  .stq 1 0 0, .ldq 31 0 0, .loop 3 0 1, .loop 0 0 0, .loopi 3 0 1, .loopi 0 0 0, .fenceS 5, .mfs 0 0x05, .mfs 0 0x15,
  .mts 0 0x23, .mts 0 0x37] : List Instr).all (fun i => !i.wf) = true := by decide +kernel

/-- R10, R92, R201: queues and tiles that do not exist. -/
theorem test_illFormed_queues : (([.port 8 0, .port 0 64, .ctx 4096 0, .ctx 0 64] : List QueueId).flatMap fun q => ([
  .chainEntryRead q, .rdLin q, .rdGath q, .wrLin q, .wrScat q, .rdOpm q, .wrLog q, .cp q, .cp2d q, .fill q, .bcast q, .colRed q,
  .colGath q, .colBar q, .sig q, .link q, .qfence q, .scale q, .commandCompletion q, .readStreamToken q, .writeStreamToken q,
  .streamCloseAtWrite q, .seqCommand q] : List Instr)).all (fun i => !i.wf) = true := by decide +kernel

theorem test_illFormed_tiles : (([⟨8, 0⟩, ⟨0, 320⟩] : List TileId).flatMap fun t => ([
  .pipelineFiring t, .genStreamClose t, .mm t, .mmSp t, .accClr t, .drain t, .sat t, .zeroSlotRequest t 0, .markerPassage t .pipe,
  .scaleTokenForward t 0, .scaleTokenLatch t 0, .regionEntryToken t 0, .tileAcknowledgement 0 t] : List Instr)).all (fun i => !i.wf) = true := by
  decide +kernel

theorem test_illFormed_inputs : ([
  .zeroSlotRequest ⟨0, 0⟩ 4, .scaleTokenForward ⟨0, 0⟩ 4, .scaleTokenLatch ⟨0, 0⟩ 4, .regionEntryToken ⟨0, 0⟩ 4] : List Instr).all
    (fun i => !i.wf) = true := by decide +kernel

/-- Acts, dies, banks, engine blocks, partitions and contexts that do not exist. -/
theorem test_illFormed_device : ([
  .commandLeavesIssueBuffer 512, .markInsertion 512, .cutComplete 512, .rollback 512 0 0, .stallWatchdog 512, .pageFaultDrain 512,
  .curtainComplete 512, .loadRequest 512 0, .loadRequest 0 4, .sceneLoadComplete 512 0, .sceneLoadComplete 0 4, .hedge 8,
  .fusedTileDrop 8, .misroutedTokenDrop 8, .bankWake 8 0, .bankWake 0 512, .slotStroke 24 0, .slotStroke 0 8, .symbolStroke 24 0 0,
  .symbolStroke 0 8 0, .standbyStrokeTakeover 24 0, .standbyStrokeTakeover 0 8, .atomicEngineService 8 0, .atomicEngineService 0 16,
  .taskBecomesOldest 4096, .taskCommit 4096, .pageTableWalk 8 0 0, .pageTableWalk 0 4096 0, .shootdownComplete 4096 0 0,
  .submissionDoorbell 4096, .launchRecord 4096, .graphRecord 4096, .cancelRecord 4096, .queueResetRecord 4096,
  .schedulingPeriodBoundary 4096, .quantumBoundary 24, .reflectionRecord 4096, .imageAdmission 4096 0 []] : List Instr).all
    (fun i => !i.wf) = true := by decide +kernel

/-- Management cores, control dies and requests that do not exist. -/
theorem test_illFormed_control : ([
  .swaitWake 2 0, .swaitWake 0 8, .swaitTimeout 2 0, .swaitTimeout 0 8, .dispatchStart 2 0, .dispatchStart 0 8, .dispatchCurtain 2 0,
  .dispatchCurtain 0 8, .dispatchRestore 2 0, .dispatchRestore 0 8, .dispatchChain 2 0, .dispatchChain 0 8, .xtimecmpWrite 2 0 0,
  .xtimecmpWrite 0 8 0, .timerExpiry 2 0, .timerExpiry 0 8, .verifyRequest 2 0, .verifyRequest 0 8, .relocationRequest 2 0 0,
  .relocationRequest 0 8 0, .heartbeatSend 2, .heartbeatArrival 2, .heartbeatMiss 2, .adoption 2, .controlDieFailure 2,
  .fenceHoldExpiry 8, .bandwidthShareRequest 24 0 0, .bandwidthShareRequest 0 8 0, .bandwidthShareRequest 0 0 257,
  .fuseRequest true 8 false [] [], .configClear 8, .configWrite 8, .fabricDieReset 8, .ethFrame 8 [] false,
  .ethFrame 0 (List.replicate 9217 0) false, .dieLinkDown 10 0, .dieLinkDown 0 10, .dieLinkUp 10 0, .dieLinkUp 0 10,
  .hostPortAccess 1025 0 false [] 0, .partitionChange 24 none, .virtualDeviceCreate 4096 0 none 0 0 none 0 0,
  .virtualDeviceCreate 0 24 none 0 0 none 0 0] : List Instr).all (fun i => !i.wf) = true := by decide +kernel

/-! ## Results that the spec works out -/

/-- The value an instruction leaves in g3 from g1 = x and g2 = y. -/
def inG3 (i : Instr) (x y : Dbl) : Option Dbl :=
  match exec i (with12 x y) with
  | .next t => some (t.g 3)
  | _ => none

/-- The table of R121: sums and differences. -/
theorem test_add_saturates : inG3 (.add 3 1 2 true false) 0x7FFFFFFFFFFFFFF0 0x20 = some 0x7FFFFFFFFFFFFFFF := by decide +kernel
theorem test_add_s32_wraps : inG3 (.add 3 1 2 false true) 0x7FFFFFFF 1 = some 0xFFFFFFFF80000000 := by decide +kernel
theorem test_sub_saturates : inG3 (.sub 3 1 2 true false) 0x8000000000000000 1 = some 0x8000000000000000 := by decide +kernel

/-- The table of R121: products, quotients, shifts and counts. -/
theorem test_mulh : inG3 (.mulh 3 1 2) 0xFFFFFFFFFFFFFFFF 0xFFFFFFFFFFFFFFFF = some 0 := by decide +kernel
theorem test_mulhz : inG3 (.mulhz 3 1 2) 0xFFFFFFFFFFFFFFFF 0xFFFFFFFFFFFFFFFF = some 0xFFFFFFFFFFFFFFFE := by decide +kernel
theorem test_div : inG3 (.div 3 1 2) 7 0xFFFFFFFFFFFFFFFE = some 0xFFFFFFFFFFFFFFFD := by decide +kernel
theorem test_rem : inG3 (.rem 3 1 2) 7 0xFFFFFFFFFFFFFFFE = some 1 := by decide +kernel
theorem test_divz_by_zero : inG3 (.divz 3 1 2) 7 0 = some 0xFFFFFFFFFFFFFFFF := by decide +kernel
theorem test_sra_s32 : inG3 (.sra 3 1 2 true) 0x80000000 0x24 = some 0xFFFFFFFFF8000000 := by decide +kernel
theorem test_clz_of_zero : inG3 (.clz 3 1) 0 0 = some 0x40 := by decide +kernel

/-- R122: the immediate of ADDI is sign-extended. -/
theorem test_addi_negative : inG3 (.addi 3 1 0xFFFF) 5 0 = some 4 := by decide +kernel

/-- R99: the check value of CRC-32C, of the nine ASCII digits 1 to 9. -/
theorem test_crc32c : crc32c [0x31, 0x32, 0x33, 0x34, 0x35, 0x36, 0x37, 0x38, 0x39] = 0xE3069283 := by decide +kernel

/-- R176: reciprocals of 1.0 and 3.0. -/
theorem test_frcp : frcp 0x3F800000 = 0x3F7FFFC0 ∧ frcp 0x40400000 = 0x3EAAAA98 := by decide +kernel

/-- R173: the example of imad.s8. -/
theorem test_imad_s8 : intOp 0x1340000000000000 0x807F02FF 0x807F03FF 0x10 = 0x7F18 := by decide +kernel

/-- R177: the example of cvt.bf16.f32. -/
theorem test_cvt : cvtOp 0x6070000000000006 0x3F800001 0 = 0x3F80 := by decide +kernel

/-- R31: the example of CMUL, −1 by −1. -/
theorem test_cmul : cqMac 0x8000 0x8000 0 = 0x7FFF := by decide +kernel

/-- The example of R181: radd.f32 over four lanes, the last of them selected or not. -/
def radd0 (l3 : W32) : W32 :=
  let e : PipeIn := { ins := [lanesOf fun i => if i = 0 then 0x4B800000 else 0x3F800000], v := 0x000F, consts := [], f := 0, latches := [] }
  let st := pipeFire e [0x8060008100000000] [lanesOf fun i => if i = 3 then l3 else 1]
  laneAt ((st.o[0]?).getD Lanes.zero) 0

theorem test_radd : radd0 1 = 0x4B800001 ∧ radd0 0 = 0x4B800000 := by decide +kernel

/-- R49: the example of a drained column, as BF16, FP32 and LN16. -/
theorem test_drain : (drainCol 0 (52376353 * 2 ^ 26) false).1 = 0x4148 ∧ (drainCol 1 (52376353 * 2 ^ 26) false).1 = 0x4147CCC8 ∧
    (drainCol 2 (52376353 * 2 ^ 26) false).1 = 0x43A4 := by decide +kernel

/-- The example of R200: six products of LN8 codes, and their sum drained as FP32. -/
theorem test_products :
    let c := [(0x40, 0x40), (0x50, 0x50), (0x48, 0xC8), (0x44, 0x44), (0x30, 0x40), (0x30, 0x40)].foldl
      (fun (c : ColSt) (p : Nat × Nat) => applyProduct false p.1 0 p.2 0 c) { acc := 0, nan := false, asat := false, aund := false }
    c = { acc := 45417715 * 2 ^ 25, nan := false, asat := false, aund := false } ∧ (drainCol 1 c.acc c.nan).1 = 0x40AD413D := by decide +kernel

/-- What a base word leaves in x`d` of the core after reset. -/
def baseX (w : W32) (d : Reg) : Option Dbl :=
  match baseWord State.reset w with
  | .next t => some (t.core.readX d)
  | _ => none

/-- R394: `addi x1, x0, -3`, written out from the RISC-V I form. -/
theorem test_base_addi : baseX 0b111111111101_00000_000_00001_0010011 1 = some (BitVec.ofInt 64 (-3)) := by decide

/-- R400: `csrrs x2, 0x7C0, x0` reads XTIMECMP, which is 0 after reset. -/
theorem test_base_csr : baseX 0b011111000000_00000_010_00010_1110011 2 = some 0 := by decide

end Sys2Proof.Tests
end

/-! SUPPORT. Scrubs (R427, R428): what counting an error and poisoning a granule change, and what they leave. -/
namespace Sys2Proof.Machine

theorem exec_scrub (w : ScrubTarget) (f : ScrubFinding) (s : State) : exec (.scrub w f) s = .next (s.find w f) := rfl

@[simp] theorem tally_bump {κ : Type} [DecidableEq κ] (j k : κ) (n : Nat) (l : List (κ × Nat)) :
    tally j (bump k n l) = if j = k then satAdd64 (tally j l) n else tally j l := by
  by_cases h : j = k
  · simp [bump, h]
  · simp [bump, h, Ne.symm h]

@[simp] theorem State.countError_fab (s : State) (p : Option Nat) (d id : Nat) : (s.countError p d id).fab = s.fab := by
  cases p <;> rfl
@[simp] theorem State.countError_acts (s : State) (p : Option Nat) (d id : Nat) : (s.countError p d id).acts = s.acts := by
  cases p <;> rfl
@[simp] theorem State.countError_mem (s : State) (p : Option Nat) (d id : Nat) : (s.countError p d id).mem = s.mem := by
  cases p <;> rfl
@[simp] theorem State.countError_counters (s : State) (p : Option Nat) (d id : Nat) :
    (s.countError p d id).ctl.counters = bump (0x10000 * (d + 1) + id) 1 s.ctl.counters := by
  cases p <;> rfl

@[simp] theorem State.bank_countError (s : State) (p : Option Nat) (d id k : Nat) : (s.countError p d id).bank k = s.bank k := by
  simp [State.bank]
@[simp] theorem State.tile_countError (s : State) (p : Option Nat) (d id : Nat) (x : TileId) :
    (s.countError p d id).tile x = s.tile x := by simp [State.tile]

@[simp] theorem State.poison_acts (s : State) (w : ScrubTarget) : (s.poison w).acts = s.acts := by cases w <;> rfl
@[simp] theorem State.poison_mem (s : State) (w : ScrubTarget) : (s.poison w).mem = s.mem := by cases w <;> rfl
@[simp] theorem State.poison_ctl (s : State) (w : ScrubTarget) : (s.poison w).ctl = s.ctl := by cases w <;> rfl

theorem State.mem_poison_bank (s : State) (d b g : Nat) : g ∈ ((s.poison (.bank d b g)).bank (bankKey d b)).poison := by
  simp [State.poison, State.bank]

theorem State.mem_poison_slot (s : State) (x : TileId) (k g : Nat) (hk : k < 16) :
    g ∈ (((s.poison (.slot x k g)).tile x).opSlot k).poison := by
  simp [State.poison, Tile.opSlot, hk]

theorem State.shadowBad_poison_shadow (s : State) (x : TileId) : ((s.poison (.shadow x)).tile x).shadowBad = true := by
  simp [State.poison]

theorem State.mem_poison_prompter (s : State) (id : Nat) : id ∈ (s.poison (.prompter id)).fab.badShadows := by
  simp [State.poison]

theorem State.mem_poison_hbm (s : State) (g : Nat) : g ∈ (s.poison (.hbm g)).fab.hbmPoison := by
  simp [State.poison]

/-- R428, R429: an uncorrectable finding notes the element, then poisons the granule, then counts. -/
theorem State.find_uncorrectable (s : State) (w : ScrubTarget) : ∃ u : State,
    s.find w .uncorrectable = (u.poison w).countError (s.scrubPart w) (scrubDie w) 0x78 ∧
    u.acts = s.acts ∧ u.mem = s.mem ∧ u.ctl = s.ctl := ⟨_, rfl, rfl, rfl, rfl⟩

end Sys2Proof.Machine

namespace Sys2Proof.Claims
open Sys2Proof Machine

theorem scrubsFind : ScrubsFind := by
  intro s w
  refine ⟨rfl, ⟨_, exec_scrub .., ?_⟩, ?_⟩
  · simp [State.find]
  · obtain ⟨u, hfind, hacts, hmem, hctl⟩ := s.find_uncorrectable w
    refine ⟨_, exec_scrub .., ?_⟩
    rw [hfind]
    refine ⟨by simp [hacts], by simp [hmem], by simp [hctl], ?_⟩
    cases w with
    | bank d b g => simpa using u.mem_poison_bank d b g
    | slot x k g => simpa using u.mem_poison_slot x k g
    | shadow x => simpa using u.shadowBad_poison_shadow x
    | prompter id => simpa using u.mem_poison_prompter id
    | hbm g => simpa using u.mem_poison_hbm g

end Sys2Proof.Claims

/-! SUPPORT. Resets (R18, R420, R424): what the boot of the package and the reset of a fabric die leave. -/
namespace Sys2Proof.Machine

theorem exec_packageReset (imgs : List Firmware) (b : BootRecord) (s : State) :
    exec (.packageReset imgs b) s = .next (if s.ctl.sec.locked then s else s.packageReset imgs b) := rfl

theorem exec_fabricDieReset (die : Nat) (s : State) : exec (.fabricDieReset die) s = .next (s.clearDie die) := rfl

theorem bootHolds_iff (ref : List (Nat × Nat × Bool)) (die core : Nat) :
    bootHolds ref die core = true ↔ ∃ r ∈ ref, r.1 = die ∧ (r.2.1 = core ∨ r.2.1 = 7) := by
  simp [bootHolds]

/-- R420: where the boot counts none of its refusals, it leaves the state of reset, with what `Security.booted` and `bootDie` keep. -/
theorem State.packageReset_uncounted (s : State) (imgs : List Firmware) (b : BootRecord) (ref : List (Nat × Nat × Bool))
    (href : ref = bootRefusals s.ctl.sec imgs 0 ++ bootRefusals s.ctl.sec imgs 1) (hcount : ∀ r ∈ ref, r.2.2 = false) :
    ∃ map soft rings, s.packageReset imgs b =
      { State.reset with
        agenda := s.agenda, fresh := s.fresh, fab := { State.reset.fab with repair := map },
        ctl := { Ctl.reset with
          dies := Vector.ofFn fun d : Fin 2 => bootDie (s.cdie d) ref imgs b d.val,
          sec := s.ctl.sec.booted ref soft b.log, hostAttached := s.ctl.hostAttached, configRings := rings } } := by
  have hall : (List.range 2).flatMap (bootRefusals s.ctl.sec imgs) = ref := by simp [List.range, List.range.loop, href]
  have hnone : ref.filter (fun r => r.2.2) = [] := by simpa using hcount
  simp only [State.packageReset, hall, hnone, List.foldl_nil]
  exact ⟨_, _, _, rfl⟩

/-! ## The reset of a fabric die -/

/-- R18: an act that loses its die: its tasks discarded, its commands without it, its context free. -/
def State.dropAct (s : State) (id : Nat) : State := ((s.discardTasks id).orphan id).setAct (Act.empty id)

@[simp] theorem State.dropAct_act (s : State) (id j : Nat) :
    (s.dropAct id).act j = if id = j then Act.empty id else s.act j := by
  by_cases h : id = j
  · simp [State.dropAct, Act.empty, h]
  · have horphan : ∀ u : State, (u.orphan id).act j = u.act j := fun _ => rfl
    have hctxs : ∀ l, ({ s with ctxs := l } : State).act j = s.act j := fun _ => rfl
    simp [State.dropAct, State.discardTasks, State.discardIn, Act.empty, horphan, hctxs, h]

theorem State.dropAct_only (s : State) (id : Nat) : ∃ acts ctxs queues, s.dropAct id =
    { s with acts := acts, ctxs := ctxs, eng := { s.eng with queues := queues } } := ⟨_, _, _, rfl⟩

/-- The act contexts that a die's reset frees. -/
def State.goneAt (s : State) (die : Nat) : List Nat := (s.acts.filter fun p => actDie p.1 == die && p.2.present).map (·.1)

theorem State.mem_goneAt (s : State) (die id : Nat) :
    id ∈ s.goneAt die ↔ actDie id = die ∧ ∃ a, (id, a) ∈ s.acts ∧ a.present = true := by
  simp only [State.goneAt, List.mem_map, List.mem_filter, Bool.and_eq_true, beq_iff_eq]
  constructor
  · rintro ⟨⟨_, a⟩, ⟨hmem, hdie, hpres⟩, rfl⟩
    exact ⟨hdie, a, hmem, hpres⟩
  · rintro ⟨hdie, a, hmem, hpres⟩
    exact ⟨(id, a), ⟨hmem, hdie, hpres⟩, rfl⟩

theorem State.dropActs_only (l : List Nat) (s : State) : ∃ acts ctxs queues, l.foldl State.dropAct s =
    { s with acts := acts, ctxs := ctxs, eng := { s.eng with queues := queues } } := by
  induction l generalizing s with
  | nil => exact ⟨_, _, _, rfl⟩
  | cons id l ih =>
    obtain ⟨a, c, q, hid⟩ := s.dropAct_only id
    obtain ⟨a', c', q', hl⟩ := ih { s with acts := a, ctxs := c, eng := { s.eng with queues := q } }
    exact ⟨a', c', q', by rw [List.foldl_cons, hid, hl]⟩

theorem State.dropActs_act (l : List Nat) (s : State) (j : Nat) :
    (l.foldl State.dropAct s).act j = if j ∈ l then Act.empty j else s.act j := by
  induction l generalizing s with
  | nil => simp
  | cons id l ih =>
    by_cases h : id = j
    · simp [ih, h]
    · simp [ih, h, Ne.symm h]

/-- R18: the state with every act of a die dropped, before the rest of the die is cleared. -/
def State.dropDie (s : State) (die : Nat) : State :=
  (s.goneAt die).foldl State.dropAct
    { s with ctxs := s.ctxs.map fun p => (p.1, { p.2 with tasks := p.2.tasks.map (·.offDie die) }) }

theorem State.dropDie_only (s : State) (die : Nat) : ∃ acts ctxs queues, s.dropDie die =
    { s with acts := acts, ctxs := ctxs, eng := { s.eng with queues := queues } } := by
  obtain ⟨a, c, q, h⟩ := State.dropActs_only (s.goneAt die)
    { s with ctxs := s.ctxs.map fun p => (p.1, { p.2 with tasks := p.2.tasks.map (·.offDie die) }) }
  exact ⟨a, c, q, h⟩

/-- R18: what clearing a die does past dropping its acts: no memory, act or control die is touched, and of the tiles, banks and slices
those of the die leave. -/
theorem State.clearDie_dropDie (s : State) (die : Nat) :
    (s.clearDie die).mem = (s.dropDie die).mem ∧ (s.clearDie die).ctl = (s.dropDie die).ctl ∧
    (s.clearDie die).acts = (s.dropDie die).acts ∧
    (s.clearDie die).fab.tiles = (s.dropDie die).fab.tiles.filter (·.1.die ≠ die) ∧
    (s.clearDie die).fab.banks = (s.dropDie die).fab.banks.filter (·.1 / 512 ≠ die) ∧
    (s.clearDie die).eng.slices = (s.dropDie die).eng.slices.filter (·.die ≠ die) := ⟨rfl, rfl, rfl, rfl, rfl, rfl⟩

theorem State.clearDie_fields (s : State) (die : Nat) :
    (s.clearDie die).mem = s.mem ∧ (s.clearDie die).ctl = s.ctl ∧
    (s.clearDie die).fab.tiles = s.fab.tiles.filter (·.1.die ≠ die) ∧
    (s.clearDie die).fab.banks = s.fab.banks.filter (·.1 / 512 ≠ die) ∧
    (s.clearDie die).eng.slices = s.eng.slices.filter (·.die ≠ die) := by
  obtain ⟨hmem, hctl, -, htiles, hbanks, hslices⟩ := s.clearDie_dropDie die
  obtain ⟨a, c, q, h⟩ := s.dropDie_only die
  simp only [hmem, hctl, htiles, hbanks, hslices, h, and_self]

/-- R18: the acts that a die's reset drops are free, and every other act is as before. -/
theorem State.clearDie_act (s : State) (die j : Nat) :
    (s.clearDie die).act j = if j ∈ s.goneAt die then Act.empty j else s.act j := by
  obtain ⟨-, -, hacts, -⟩ := s.clearDie_dropDie die
  rw [State.act_congr hacts, State.dropDie, State.dropActs_act]
  rfl

theorem mem_of_assoc? {κ α : Type} [DecidableEq κ] {k : κ} {v : α} {l : List (κ × α)} (h : assoc? k l = some v) : (k, v) ∈ l := by
  induction l with
  | nil => cases h
  | cons p l ih =>
    obtain ⟨k', v'⟩ := p
    by_cases hk : k' = k
    · obtain rfl : v' = v := by simpa [assoc?, hk] using h
      simp [hk]
    · exact List.mem_cons_of_mem _ (ih (by simpa [assoc?, hk] using h))

theorem State.act_mem_or_empty (s : State) (id : Nat) : (id, s.act id) ∈ s.acts ∨ s.act id = Act.empty id := by
  unfold State.act
  cases h : assoc? id s.acts with
  | none => exact .inr rfl
  | some a => exact .inl (mem_of_assoc? h)

/-- R18: an act of the die that the reset does not drop is free already, or switched out. -/
theorem State.life_of_not_mem_goneAt (s : State) (die id : Nat) (hdie : actDie id = die) (h : id ∉ s.goneAt die) :
    (s.act id).life = .free ∨ (s.act id).life = .switchedOut := by
  rcases s.act_mem_or_empty id with hmem | hempty
  · have habsent : (s.act id).present ≠ true := fun hp => h ((s.mem_goneAt die id).2 ⟨hdie, _, hmem, hp⟩)
    by_cases hfree : (s.act id).life = .free
    · exact .inl hfree
    · by_cases hout : (s.act id).life = .switchedOut
      · exact .inr hout
      · exact absurd (by simp [Act.present, hfree, hout]) habsent
  · exact .inl (by rw [hempty]; rfl)

end Sys2Proof.Machine

namespace Sys2Proof.Claims
open Sys2Proof Machine

theorem fabricDieReset_clears (s : State) (die : Nat) : ∃ t, exec (.fabricDieReset die) s = .next t ∧ t.mem = s.mem ∧ t.ctl = s.ctl ∧
    (∀ id, actDie id = die → (s.act id).life ≠ .switchedOut → (t.act id).life = .free) ∧
    (∀ id, (actDie id ≠ die ∨ ∀ p ∈ s.acts, p.1 = id → p.2.life = .switchedOut) → t.act id = s.act id) ∧
    (∀ p, p ∈ t.fab.tiles ↔ p ∈ s.fab.tiles ∧ p.1.die ≠ die) ∧ (∀ p, p ∈ t.fab.banks ↔ p ∈ s.fab.banks ∧ p.1 / 512 ≠ die) ∧
    ∀ e, e ∈ t.eng.slices ↔ e ∈ s.eng.slices ∧ e.die ≠ die := by
  obtain ⟨hmem, hctl, htiles, hbanks, hslices⟩ := s.clearDie_fields die
  refine ⟨_, exec_fabricDieReset .., hmem, hctl, fun id hdie hlife => ?_, fun id hkept => ?_, ?_, ?_, ?_⟩
  · rw [State.clearDie_act]
    split
    · rfl
    · rename_i hgone
      exact (s.life_of_not_mem_goneAt die id hdie hgone).resolve_right hlife
  · have hgone : id ∉ s.goneAt die := by
      rw [State.mem_goneAt]
      rintro ⟨hdie, a, ha, hpres⟩
      rcases hkept with hne | hout
      · exact hne hdie
      · simp [Act.present, show a.life = .switchedOut from hout _ ha rfl] at hpres
    rw [State.clearDie_act, if_neg hgone]
  · simp [htiles]
  · simp [hbanks]
  · simp [hslices]

theorem resetsReset : ResetsReset := by
  refine ⟨fun s imgs ref b hlocked href hcount => ?_, fun s imgs b hlocked => ?_, fabricDieReset_clears⟩
  · obtain ⟨map, soft, rings, h⟩ := s.packageReset_uncounted imgs b ref href hcount
    refine ⟨s.packageReset imgs b, by simp [exec_packageReset, hlocked], ?_⟩
    rw [h]
    refine ⟨rfl, rfl, rfl, rfl, rfl, rfl, rfl, rfl, rfl, rfl, rfl, rfl, fun d k => ?_, fun d k => ?_⟩
    · simp [State.mcore, State.cdie, bootDie, bootHolds_iff]
    · simp [State.cdie, bootDie, bootHolds_iff]
  · simp [Holds, exec_packageReset, hlocked]

end Sys2Proof.Claims

/-! SUPPORT. Ports and links (R11, R19, R20): what each event of them does. -/
namespace Sys2Proof.Machine

/-- R19: a port that takes a frame: the one addressed, if its link is up. -/
def EthPort.take (p : EthPort) (n : Nat) (f : List Byte) (stamp : Option Nat) : EthPort :=
  if p.port = n && p.up then { p with frames := p.frames ++ [(f, stamp)] } else p

theorem exec_ethFrame (n : Nat) (f : List Byte) (ptp : Bool) (s : State) : exec (.ethFrame n f ptp) s = .next
    (if s.ctl.sec.quiesced || s.ctl.sec.locked || 9216 < f.length || s.cdFailed (n / 4) then s
      else { s with ctl := { s.ctl with eth := s.ctl.eth.map (·.take n f (if ptp then some s.cycle else none)) } }) := rfl

theorem exec_hostAttach (s : State) : exec .hostAttach s = .next { s with ctl := { s.ctl with hostAttached := true } } := rfl

@[simp] theorem EthPort.take_port (p : EthPort) (n : Nat) (f : List Byte) (x : Option Nat) : (p.take n f x).port = p.port := by
  unfold EthPort.take; split <;> rfl
@[simp] theorem EthPort.take_up (p : EthPort) (n : Nat) (f : List Byte) (x : Option Nat) : (p.take n f x).up = p.up := by
  unfold EthPort.take; split <;> rfl
theorem EthPort.take_frames (p : EthPort) (n : Nat) (f : List Byte) (x : Option Nat) :
    (p.take n f x).frames = if p.port = n ∧ p.up = true then p.frames ++ [(f, x)] else p.frames := by
  simp only [EthPort.take, Bool.and_eq_true, decide_eq_true_eq]
  split <;> rfl

/-! ## Links -/

theorem exec_dieLinkDown (a b : Nat) (s : State) : exec (.dieLinkDown a b) s = .next
    (if (joined a).contains b && !(s.ctl.linksDown.contains (a, b)) then
      { s with ctl := { s.ctl with linksDown := s.ctl.linksDown ++ [(a, b)] } } else s) := rfl

theorem exec_dieLinkUp (a b : Nat) (s : State) : exec (.dieLinkUp a b) s = .next
    { s with ctl := { s.ctl with linksDown := s.ctl.linksDown.filter fun l => l != (a, b) && l != (b, a) } } := rfl

/-- No pair of a list joins two dies, in either order. -/
theorem any_pair_eq_false_iff (l : List (Nat × Nat)) (a b : Nat) :
    (l.any fun x => x == (a, b) || x == (b, a)) = false ↔ (a, b) ∉ l ∧ (b, a) ∉ l := by
  simp only [List.any_eq_false, Bool.or_eq_true, beq_iff_eq]
  constructor
  · intro h
    exact ⟨fun hab => h _ hab (.inl rfl), fun hba => h _ hba (.inr rfl)⟩
  · rintro ⟨hab, hba⟩ x hx (rfl | rfl)
    · exact hab hx
    · exact hba hx

theorem State.linkUp_iff (s : State) (a b : Nat) : s.linkUp a b = true ↔
    ((a, b) ∉ s.ctl.linksDown ∧ (b, a) ∉ s.ctl.linksDown) ∧ (a, b) ∉ s.ctl.fences ∧ (b, a) ∉ s.ctl.fences := by
  simp only [State.linkUp, State.linkStands, Bool.and_eq_true, Bool.not_eq_true', any_pair_eq_false_iff]

/-- A link that is down carries traffic in neither direction. -/
theorem State.linkUp_of_mem_linksDown {s : State} {a b : Nat} (h : (a, b) ∈ s.ctl.linksDown) :
    s.linkUp a b = false ∧ s.linkUp b a = false := by
  simp only [← Bool.not_eq_true, State.linkUp_iff]
  exact ⟨fun hup => hup.1.1 h, fun hup => hup.1.2 h⟩

/-! ## The host port -/

/-- R20: the host port takes accesses: a host is attached over a link that is up, CDW has not failed, and no alarm has closed it. -/
structure State.HostServed (s : State) : Prop where
  attached : s.ctl.hostAttached = true
  up : s.ctl.hostUp = true
  alive : s.cdFailed 0 = false
  unquiesced : s.ctl.sec.quiesced = false
  unlocked : s.ctl.sec.locked = false

/-- R11, R20: an access outside what the function may reach does nothing. -/
theorem exec_hostPortAccess_barred (s : State) (fn pa n : Nat) (bs : List Byte) (w : Bool)
    (hmay : hostMay s fn pa (if w then bs.length else n) = false) : exec (.hostPortAccess fn pa w bs n) s = .next s := by
  show execHostPortAccess fn pa w bs n s = .next s
  simp [execHostPortAccess, hmay]

section
variable {s : State} {fn pa n : Nat} {bs : List Byte} {w : Bool}

/-- R11, R20: an access that its function may make: the machine stops where it ends at no memory, and otherwise a write is stored
unless a fence has cut its memory off. -/
theorem exec_hostPortAccess (hs : s.HostServed) (hmay : hostMay s fn pa (if w then bs.length else n) = true)
    (hn : (if w then bs.length else n) ≠ 0) : exec (.hostPortAccess fn pa w bs n) s =
      if !populated pa || !populated (pa + (if w then bs.length else n) - 1) then .fault (.unpopulated pa)
      else .next (if w && !s.fencedMem pa then s.storeFrom (some 0) pa bs else s) := by
  show execHostPortAccess fn pa w bs n s = _
  simp only [execHostPortAccess, hs.attached, hs.up, hs.alive, hs.unquiesced, hs.unlocked, hmay, if_neg hn, Bool.not_true, Bool.or_false,
    Bool.false_eq_true, if_false]

theorem exec_hostPortAccess_unpopulated (hs : s.HostServed) (hmay : hostMay s fn pa (if w then bs.length else n) = true)
    (hn : (if w then bs.length else n) ≠ 0) (hpa : populated pa = false) :
    exec (.hostPortAccess fn pa w bs n) s = .fault (.unpopulated pa) := by
  simp [exec_hostPortAccess hs hmay hn, hpa]

theorem exec_hostPortAccess_read (hs : s.HostServed) (hmay : hostMay s fn pa n = true) (hn : n ≠ 0) (hpa : populated pa = true)
    (hend : populated (pa + n - 1) = true) : exec (.hostPortAccess fn pa false bs n) s = .next s := by
  simp [exec_hostPortAccess (w := false) hs hmay hn, hpa, hend]

theorem exec_hostPortAccess_write (hs : s.HostServed) (hmay : hostMay s fn pa bs.length = true) (hn : bs.length ≠ 0)
    (hpa : populated pa = true) (hend : populated (pa + bs.length - 1) = true) (hf : s.fencedMem pa = false) :
    exec (.hostPortAccess fn pa true bs n) s = .next (s.storeFrom (some 0) pa bs) := by
  simp [exec_hostPortAccess (w := true) hs hmay hn, hpa, hend, hf]

end

/-- R11: a store of CDW that a link carries, with none before it waiting, is performed. -/
theorem State.storeFrom_of_reaches {s : State} {pa : Nat} (bs : List Byte) (hr : s.controlReaches 0 pa = true)
    (hlate : ∀ x ∈ s.ctl.late, x.cdie ≠ some 0) : s.storeFrom (some 0) pa bs = s.storeList pa bs := by
  have hleads : s.leads (some 0) pa = true := hr
  have hnone : (s.ctl.late.any fun x => x.cdie == some 0) = false := by simpa using hlate
  simp [State.storeFrom, hleads, hnone]

/-- R11: a store of CDW that no link carries waits. -/
theorem State.storeFrom_of_not_reaches {s : State} {pa : Nat} (bs : List Byte) (hr : s.controlReaches 0 pa = false) :
    s.storeFrom (some 0) pa bs =
      { s with ctl := { s.ctl with late := s.ctl.late ++ [{ cdie := some 0, pa := pa, bytes := bs }] } } := by
  have hleads : s.leads (some 0) pa = false := hr
  simp [State.storeFrom, hleads]

end Sys2Proof.Machine

namespace Sys2Proof.Claims
open Sys2Proof Machine

theorem ethFrame_taken (s : State) (n : Nat) (f : List Byte) (ptp : Bool) (hq : s.ctl.sec.quiesced = false)
    (hl : s.ctl.sec.locked = false) (hf : f.length ≤ 9216) (hcd : s.cdFailed (n / 4) = false) :
    ∃ t, exec (.ethFrame n f ptp) s = .next t ∧ t = { s with ctl := { s.ctl with eth := t.ctl.eth } } ∧
      ∀ (i : Nat) (p : EthPort), s.ctl.eth[i]? = some p → ∃ q, t.ctl.eth[i]? = some q ∧ q.port = p.port ∧ q.up = p.up ∧
        q.frames = if p.port = n ∧ p.up = true then p.frames ++ [(f, if ptp then some s.cycle else none)] else p.frames := by
  refine ⟨_, exec_ethFrame .., ?_⟩
  rw [if_neg (by simp [hq, hl, hcd, hf])]
  exact ⟨rfl, fun i p hp => ⟨p.take n f _, by simp [hp], p.take_port .., p.take_up .., p.take_frames ..⟩⟩

theorem dieLinkDown_cuts (s : State) (a b : Nat) (hj : b ∈ joined a) :
    ∃ t, exec (.dieLinkDown a b) s = .next t ∧ t = { s with ctl := t.ctl } ∧ t.linkUp a b = false ∧ t.linkUp b a = false := by
  refine ⟨_, exec_dieLinkDown .., ?_⟩
  by_cases hdown : (a, b) ∈ s.ctl.linksDown
  · rw [if_neg (by simp [hdown])]
    exact ⟨rfl, State.linkUp_of_mem_linksDown hdown⟩
  · rw [if_pos (by simp [hdown, hj])]
    exact ⟨rfl, State.linkUp_of_mem_linksDown (by simp)⟩

theorem dieLinkUp_joins (s : State) (a b : Nat) : ∃ t, exec (.dieLinkUp a b) s = .next t ∧ t = { s with ctl := t.ctl } ∧
    ((a, b) ∉ s.ctl.fences → (b, a) ∉ s.ctl.fences → t.linkUp a b = true) := by
  refine ⟨_, exec_dieLinkUp .., rfl, fun hab hba => ?_⟩
  rw [State.linkUp_iff]
  exact ⟨⟨by simp, by simp⟩, hab, hba⟩

theorem portsAndLinks : PortsAndLinks := by
  refine ⟨ethFrame_taken, dieLinkDown_cuts, dieLinkUp_joins, fun s => ⟨_, exec_hostAttach s, rfl⟩, ?_, exec_hostPortAccess_barred, ?_⟩
  · intro s fn pa n bs w ha hu hcd hq hl hmay hn
    have hs : s.HostServed := ⟨ha, hu, hcd, hq, hl⟩
    refine ⟨fun hpa hend => ⟨?_, ?_⟩, exec_hostPortAccess_unpopulated hs hmay hn⟩
    · rintro rfl hf hr hlate
      refine ⟨_, exec_hostPortAccess_write hs hmay hn hpa hend hf, ?_⟩
      simp [State.storeFrom_of_reaches bs hr hlate]
    · rintro rfl
      exact exec_hostPortAccess_read hs hmay hn hpa hend
  · intro s fn pa bs n ha hu hcd hq hl hmay hbs hpa hend hf hr
    have hn : bs.length ≠ 0 := by simpa using hbs
    have hstored := exec_hostPortAccess_write (n := n) ⟨ha, hu, hcd, hq, hl⟩ hmay hn hpa hend hf
    rw [State.storeFrom_of_not_reaches bs hr] at hstored
    exact ⟨_, _, hstored, rfl, rfl, rfl, rfl, rfl⟩

end Sys2Proof.Claims

/-! SUPPORT. Partitions and virtual devices (R364 to R366): the tags of tiles, and what a change of a partition leaves. -/
namespace Sys2Proof.Machine

/-! ## Tags -/

/-- R365: whether a partition holds a tile after a change; one that ends holds none. -/
def newHolds (new : Option PartSpec) (x : TileId) : Bool :=
  match new with
  | some p => partHolds p x
  | none => false

/-- R366: the tag of a tile after a change of partition `n`, which now holds the tile or not. -/
def retag (n : Nat) (holds : Bool) (tag : Option Nat) : Option Nat :=
  if holds then some n else if tag = some n then none else tag

@[simp] theorem retag_retag (n : Nat) (holds : Bool) (tag : Option Nat) : retag n holds (retag n holds tag) = retag n holds tag := by
  cases holds
  · by_cases h : tag = some n <;> simp [retag, h]
  · rfl

theorem retag_ne_of_not_holds (n : Nat) (tag : Option Nat) : retag n false tag ≠ some n := by
  by_cases h : tag = some n <;> simp [retag, h]

/-- R366: one tile given its tag. -/
def State.tagTile (n : Nat) (new : Option PartSpec) (s : State) (x : TileId) : State :=
  if newHolds new x then s.updTile x fun y => { y with tag := some n }
  else if (s.tile x).tag = some n then s.updTile x fun y => { y with tag := none } else s

theorem State.tag_tagTile (n : Nat) (new : Option PartSpec) (s : State) (x y : TileId) :
    ((State.tagTile n new s x).tile y).tag = if x = y then retag n (newHolds new y) (s.tile y).tag else (s.tile y).tag := by
  by_cases hxy : x = y
  · subst hxy
    unfold State.tagTile retag
    split
    · simp
    · split <;> simp_all
  · unfold State.tagTile
    split
    · simp [hxy]
    · split <;> simp [hxy]

theorem State.tagTile_only (n : Nat) (new : Option PartSpec) (s : State) (x : TileId) :
    ∃ fab, State.tagTile n new s x = { s with fab := fab } := by
  unfold State.tagTile
  split
  · exact ⟨_, rfl⟩
  · split <;> exact ⟨_, rfl⟩

theorem State.tag_foldl_tagTile (n : Nat) (new : Option PartSpec) (l : List TileId) (s : State) (y : TileId) :
    ((l.foldl (State.tagTile n new) s).tile y).tag =
      if y ∈ l then retag n (newHolds new y) (s.tile y).tag else (s.tile y).tag := by
  induction l generalizing s with
  | nil => rfl
  | cons x l ih =>
    rw [List.foldl_cons, ih, State.tag_tagTile]
    by_cases hx : x = y
    · simp [hx]
    · simp [hx, Ne.symm hx]

theorem State.foldl_tagTile_only (n : Nat) (new : Option PartSpec) (l : List TileId) (s : State) :
    ∃ fab, l.foldl (State.tagTile n new) s = { s with fab := fab } := by
  induction l generalizing s with
  | nil => exact ⟨_, rfl⟩
  | cons x l ih =>
    obtain ⟨f, hx⟩ := State.tagTile_only n new s x
    obtain ⟨g, hl⟩ := ih { s with fab := f }
    exact ⟨g, by rw [List.foldl_cons, hx, hl]⟩

/-- R12: the tiles of the eight fabric dies. -/
def allTiles : List TileId := (List.range 8).flatMap dieTiles

theorem mem_allTiles (x : TileId) (hd : x.die < 8) (ht : x.tile < 320) : x ∈ allTiles := by
  simp only [allTiles, dieTiles, List.mem_flatMap, List.mem_range, List.mem_map]
  exact ⟨x.die, hd, x.tile, ht, rfl⟩

theorem State.tagTiles_eq_foldl (s : State) (n : Nat) (new : Option PartSpec) :
    s.tagTiles n new = allTiles.foldl (State.tagTile n new) s := by
  rw [allTiles, List.foldl_flatMap]
  cases new <;> rfl

theorem State.tag_tagTiles (s : State) (n : Nat) (new : Option PartSpec) (x : TileId) (hd : x.die < 8) (ht : x.tile < 320) :
    ((s.tagTiles n new).tile x).tag = retag n (newHolds new x) (s.tile x).tag := by
  rw [State.tagTiles_eq_foldl, State.tag_foldl_tagTile, if_pos (mem_allTiles x hd ht)]

theorem State.tagTiles_only (s : State) (n : Nat) (new : Option PartSpec) : ∃ fab, s.tagTiles n new = { s with fab := fab } := by
  rw [State.tagTiles_eq_foldl]
  exact State.foldl_tagTile_only ..

@[simp] theorem State.tagTiles_acts (s : State) (n : Nat) (new : Option PartSpec) : (s.tagTiles n new).acts = s.acts := by
  obtain ⟨f, h⟩ := s.tagTiles_only n new; rw [h]
@[simp] theorem State.tagTiles_mem (s : State) (n : Nat) (new : Option PartSpec) : (s.tagTiles n new).mem = s.mem := by
  obtain ⟨f, h⟩ := s.tagTiles_only n new; rw [h]

/-! ## The list of partitions -/

@[simp] theorem State.putPart_acts (s : State) (n : Nat) (p : PartSpec) : (s.putPart n p).acts = s.acts := rfl
@[simp] theorem State.putPart_mem (s : State) (n : Nat) (p : PartSpec) : (s.putPart n p).mem = s.mem := rfl
@[simp] theorem State.putPart_tile (s : State) (n : Nat) (p : PartSpec) (x : TileId) : (s.putPart n p).tile x = s.tile x := rfl

/-- A partition that changes keeps its place in the list. -/
theorem find?_map_spec (l : List Partition) (n : Nat) (p : PartSpec) :
    (l.map fun q => if q.id = n then { q with spec := p } else q).find? (fun q => q.id == n) =
      (l.find? fun q => q.id == n).map fun q => { q with spec := p } := by
  induction l with
  | nil => rfl
  | cons q l ih =>
    by_cases h : q.id = n
    · simp [h]
    · simp [h, ih]

theorem State.part?_putPart (s : State) (n : Nat) (p : PartSpec) : ∃ q, (s.putPart n p).part? n = some q ∧ q.spec = p := by
  cases h : s.part? n with
  | none =>
    have hnone : s.sch.parts.find? (fun q => q.id == n) = none := h
    simp [State.putPart, State.part?, hnone]
  | some q =>
    have hsome : s.sch.parts.find? (fun q => q.id == n) = some q := h
    refine ⟨{ q with spec := p }, ?_, rfl⟩
    simp only [State.part?, State.putPart, hsome, Option.isSome_some, if_true, find?_map_spec, Option.map_some]

/-- R365, R414: a partition off the list, and its strokes off the bell. -/
def State.removePart (s : State) (n : Nat) : State :=
  s.updBell (fun b => { b with slots := b.slots.filter (·.1 ≠ n), acted := b.acted.filter (·.1 ≠ n) }) |> fun s =>
    { s with sch := { s.sch with parts := s.sch.parts.filter (·.id ≠ n) } }

@[simp] theorem State.removePart_acts (s : State) (n : Nat) : (s.removePart n).acts = s.acts := rfl
@[simp] theorem State.removePart_mem (s : State) (n : Nat) : (s.removePart n).mem = s.mem := rfl
@[simp] theorem State.removePart_tile (s : State) (n : Nat) (x : TileId) : (s.removePart n).tile x = s.tile x := rfl

theorem State.part?_removePart (s : State) (n : Nat) : (s.removePart n).part? n = none := by
  simp [State.part?, State.removePart]

/-! ## Changes -/

theorem exec_partitionChange (n : Nat) (new : Option PartSpec) (s : State) :
    exec (.partitionChange n new) s = execPartitionChange n new s := rfl

theorem execPartitionChange_none (n : Nat) (s : State) : execPartitionChange n none s = .next
    (if 24 ≤ n || s.ctl.sec.locked || changeTouched s ((s.part? n).map (·.spec)) none || bellHeld s n ((s.part? n).map (·.spec)) none then s
      else if s.sch.vdevs.any (·.part == n) then s else (s.tagTiles n none).removePart n) := rfl

section
variable {s : State} {n : Nat} (hn : n < 24) (hlocked : s.ctl.sec.locked = false)
include hn hlocked

/-- R365: a partition made or changed: its tiles take their tags, then the list holds it. -/
theorem exec_partitionChange_some {p : PartSpec} (htouched : changeTouched s ((s.part? n).map (·.spec)) (some p) = false)
    (hbell : bellHeld s n ((s.part? n).map (·.spec)) (some p) = false) (hspec : partSpecOk p = true) (hapart : partsApart s n p = true) :
    exec (.partitionChange n (some p)) s = .next ((s.tagTiles n (some p)).putPart n p) := by
  have h24 : ¬ 24 ≤ n := by omega
  simp [exec_partitionChange, execPartitionChange, h24, hlocked, htouched, hbell, hspec, hapart]

/-- R365: a partition without virtual devices ended: its tiles lose their tag, and the list does not hold it. -/
theorem exec_partitionChange_none (htouched : changeTouched s ((s.part? n).map (·.spec)) none = false)
    (hbell : bellHeld s n ((s.part? n).map (·.spec)) none = false) (hdevs : ∀ v ∈ s.sch.vdevs, v.part ≠ n) :
    exec (.partitionChange n none) s = .next ((s.tagTiles n none).removePart n) := by
  have h24 : ¬ 24 ≤ n := by omega
  have hnone : (s.sch.vdevs.any fun v => v.part == n) = false := by simpa using hdevs
  rw [exec_partitionChange, execPartitionChange_none, if_neg (by simp [h24, hlocked, htouched, hbell]), if_neg (by simp [hnone])]

end

/-! ## Virtual devices -/

/-- R351, R364: a device put into its partition's round robin changes the lists of devices and partitions only. -/
theorem State.addDevice_only (s : State) (v : VDev) : ∃ parts,
    s.addDevice v = { s with sch := { s.sch with vdevs := s.sch.vdevs ++ [v], parts := parts } } := by
  simp only [State.addDevice]
  split
  · exact ⟨_, rfl⟩
  · split
    · exact ⟨_, rfl⟩
    · split
      · split <;> exact ⟨_, rfl⟩
      · exact ⟨_, rfl⟩

@[simp] theorem State.addDevice_acts (s : State) (v : VDev) : (s.addDevice v).acts = s.acts := by
  obtain ⟨ps, h⟩ := s.addDevice_only v; rw [h]
@[simp] theorem State.addDevice_mem (s : State) (v : VDev) : (s.addDevice v).mem = s.mem := by
  obtain ⟨ps, h⟩ := s.addDevice_only v; rw [h]
@[simp] theorem State.addDevice_ctx (s : State) (v : VDev) (c : Nat) : (s.addDevice v).ctx c = s.ctx c := by
  obtain ⟨ps, h⟩ := s.addDevice_only v; rw [h]; rfl
@[simp] theorem State.addDevice_vdevs (s : State) (v : VDev) : (s.addDevice v).sch.vdevs = s.sch.vdevs ++ [v] := by
  obtain ⟨ps, h⟩ := s.addDevice_only v; rw [h]

/-- R364: a virtual device as it is created in cycle `now`. -/
def newDevice (now c n q per : Nat) (vf : Option Nat) (ring : Nat) (m : W32) : VDev :=
  { ctx := c, part := n, quantum := q, debt := 0, period := if per = 0 then 100 else per,
    periodEnd := now + 2300 * (if per = 0 then 100 else per), vf := vf, traceRing := ring, traceMask := m, lost := 0 }

/-- R364: the state with the context of a virtual device of partition `p`, and its key. -/
def State.withDeviceCtx (s : State) (c n : Nat) (p : PartSpec) (bs : List Byte) : State :=
  { s with ctxs := assocSet c (ctxOfDesc c none n 1 p.base p.length 20 (descWords bs)) s.ctxs }.giveKey c

@[simp] theorem State.withDeviceCtx_acts (s : State) (c n : Nat) (p : PartSpec) (bs : List Byte) :
    (s.withDeviceCtx c n p bs).acts = s.acts := rfl
@[simp] theorem State.withDeviceCtx_mem (s : State) (c n : Nat) (p : PartSpec) (bs : List Byte) :
    (s.withDeviceCtx c n p bs).mem = s.mem := rfl

theorem State.withDeviceCtx_ctx (s : State) (c n : Nat) (p : PartSpec) (bs : List Byte) :
    (s.withDeviceCtx c n p bs).ctx c = ctxOfDesc c none n 1 p.base p.length 20 (descWords bs) := by
  have h : (s.withDeviceCtx c n p bs).ctxs = assocSet c (ctxOfDesc c none n 1 p.base p.length 20 (descWords bs)) s.ctxs := rfl
  simp [State.ctx, h]

theorem exec_virtualDeviceCreate {s : State} {c n q per ring : Nat} {bs : List Byte} {vf : Option Nat} {m : W32} {p : Partition}
    (hp : s.part? n = some p) (hok : deviceOk s c p bs q per vf = true) (hlocked : s.ctl.sec.locked = false) :
    exec (.virtualDeviceCreate c n (some bs) q per vf ring m) s =
      .next ((s.withDeviceCtx c n p.spec bs).addDevice (newDevice s.cycle c n q per vf ring m)) := by
  show execVirtualDeviceCreate c n (some bs) q per vf ring m s = _
  simp only [execVirtualDeviceCreate, hlocked, hp, hok, Bool.not_true, Bool.false_eq_true, if_false]
  rfl

end Sys2Proof.Machine

namespace Sys2Proof.Claims
open Sys2Proof Machine

theorem partitionChange_puts (s : State) (n : Nat) (p : PartSpec) (hn : n < 24)
    (htouched : changeTouched s ((s.part? n).map (·.spec)) (some p) = false) (hlocked : s.ctl.sec.locked = false)
    (hbell : bellHeld s n ((s.part? n).map (·.spec)) (some p) = false) (hspec : partSpecOk p = true) (hapart : partsApart s n p = true) :
    ∃ t q, exec (.partitionChange n (some p)) s = .next t ∧ t.part? n = some q ∧ q.spec = p ∧ t.acts = s.acts ∧ t.mem = s.mem ∧
      ∀ x : TileId, x.die < 8 → x.tile < 320 → (t.tile x).tag = if partHolds p x = true then some n
        else if (s.tile x).tag = some n then none else (s.tile x).tag := by
  obtain ⟨q, hq, hqp⟩ := (s.tagTiles n (some p)).part?_putPart n p
  refine ⟨_, q, exec_partitionChange_some hn hlocked htouched hbell hspec hapart, hq, hqp, by simp, by simp,
    fun x hd ht => ?_⟩
  rw [State.putPart_tile, State.tag_tagTiles s n (some p) x hd ht]
  rfl

theorem partitionChange_ends (s : State) (n : Nat) (hn : n < 24) (htouched : changeTouched s ((s.part? n).map (·.spec)) none = false)
    (hlocked : s.ctl.sec.locked = false) (hbell : bellHeld s n ((s.part? n).map (·.spec)) none = false)
    (hdevs : ∀ v ∈ s.sch.vdevs, v.part ≠ n) :
    ∃ t, exec (.partitionChange n none) s = .next t ∧ t.part? n = none ∧ t.acts = s.acts ∧ t.mem = s.mem ∧
      ∀ x : TileId, x.die < 8 → x.tile < 320 → (t.tile x).tag ≠ some n := by
  refine ⟨_, exec_partitionChange_none hn hlocked htouched hbell hdevs, State.part?_removePart ..,
    (State.removePart_acts ..).trans (s.tagTiles_acts n none), (State.removePart_mem ..).trans (s.tagTiles_mem n none), fun x hd ht => ?_⟩
  rw [State.removePart_tile, State.tag_tagTiles s n none x hd ht]
  exact retag_ne_of_not_holds n _

theorem virtualDeviceCreate_makes (s : State) (c n q per ring : Nat) (bs : List Byte) (vf : Option Nat) (m : W32) (p : Partition)
    (hp : s.part? n = some p) (hok : deviceOk s c p bs q per vf = true) (hlocked : s.ctl.sec.locked = false) :
    ∃ t v, exec (.virtualDeviceCreate c n (some bs) q per vf ring m) s = .next t ∧ v ∈ t.sch.vdevs ∧ v.ctx = c ∧ v.part = n ∧
      v.quantum = q ∧ v.period = (if per = 0 then 100 else per) ∧ v.vf = vf ∧ v.traceRing = ring ∧ v.traceMask = m ∧
      (t.ctx c).depth = 1 ∧ (t.ctx c).parent = none ∧ (t.ctx c).part = n ∧
      (t.ctx c).fb = p.spec.base + (descWords bs 1).toNat % 2 ^ 48 ∧ (t.ctx c).qmask = descWords bs 3 ∧ (t.ctx c).sring = descWords bs 10 ∧
      t.acts = s.acts ∧ t.mem = s.mem := by
  refine ⟨_, newDevice s.cycle c n q per vf ring m, exec_virtualDeviceCreate hp hok hlocked, by simp, rfl, rfl, rfl, rfl, rfl, rfl,
    rfl, ?_⟩
  rw [State.addDevice_ctx, State.withDeviceCtx_ctx]
  exact ⟨rfl, rfl, rfl, by simp [ctxOfDesc, bits], rfl, rfl, by simp, by simp⟩

theorem partitionsAndDevices : PartitionsAndDevices :=
  ⟨partitionChange_puts, partitionChange_ends, virtualDeviceCreate_makes⟩

/-- Settles O54: scrubs, resets, ports and links, and partitions and devices, each by the lemmas about its events. -/
theorem portsAndPartitions : Obligations.PortsAndPartitions :=
  ⟨scrubsFind, resetsReset, portsAndLinks, partitionsAndDevices⟩

end Sys2Proof.Claims

/-! SUPPORT. Firings (R56, R58, R59, R62, R71, R256): what taking their power tokens, inputs and credits leaves, and when an element
fires. -/
namespace Sys2Proof.Claims
open Sys2Proof Machine

theorem SameRegs.refl (s : State) : SameRegs s s := fun _ => rfl

theorem SameRegs.trans {s t u : State} (h : SameRegs s t) (h' : SameRegs t u) : SameRegs s u :=
  fun id => (h' id).trans (h id)

theorem SameRegs.updAct (s : State) (id : Nat) {f : Act → Act} (hf : ∀ a, (f a).regs = a.regs) : SameRegs s (s.updAct id f) := by
  intro j
  rw [State.act_updAct]
  split
  · exact hf _
  · rfl

end Sys2Proof.Claims

namespace Sys2Proof.Machine
open Claims

/-- What no firing changes: memory, the cycle and the registers of the acts. -/
structure FabricStep (s u : State) : Prop where
  mem : u.mem = s.mem
  cycle : u.cycle = s.cycle
  regs : SameRegs s u

/-- What the tokens and credits that a firing takes leave beside that: what each tile keeps for its elements, and its outgoing tokens. -/
structure FiringStep (s u : State) : Prop extends FabricStep s u where
  st : ∀ x, (u.tile x).st = (s.tile x).st
  outq : ∀ x, (u.tile x).outq = (s.tile x).outq

section
variable {s u v : State}

theorem FabricStep.refl (s : State) : FabricStep s s := ⟨rfl, rfl, SameRegs.refl s⟩

theorem FabricStep.trans (h : FabricStep s u) (h' : FabricStep u v) : FabricStep s v :=
  ⟨h'.mem.trans h.mem, h'.cycle.trans h.cycle, h.regs.trans h'.regs⟩

theorem FabricStep.updTile (h : FabricStep s u) (t : TileId) (f : Tile → Tile) : FabricStep s (u.updTile t f) :=
  h.trans ⟨rfl, rfl, fun _ => rfl⟩

theorem FabricStep.updAct (h : FabricStep s u) (id : Nat) {f : Act → Act} (hf : ∀ a, (f a).regs = a.regs) :
    FabricStep s (u.updAct id f) :=
  h.trans ⟨rfl, rfl, SameRegs.updAct u id hf⟩

theorem FabricStep.count (h : FabricStep s u) (c n k : Nat) : FabricStep s (u.count c n k) := h.trans ⟨rfl, rfl, fun _ => rfl⟩

theorem FiringStep.refl (s : State) : FiringStep s s := ⟨.refl s, fun _ => rfl, fun _ => rfl⟩

theorem FiringStep.trans (h : FiringStep s u) (h' : FiringStep u v) : FiringStep s v :=
  ⟨h.toFabricStep.trans h'.toFabricStep, fun x => (h'.st x).trans (h.st x), fun x => (h'.outq x).trans (h.outq x)⟩

theorem FiringStep.updAct (h : FiringStep s u) (id : Nat) {f : Act → Act} (hf : ∀ a, (f a).regs = a.regs) :
    FiringStep s (u.updAct id f) :=
  ⟨h.toFabricStep.updAct id hf, h.st, h.outq⟩

theorem FiringStep.updTile (h : FiringStep s u) (t : TileId) {f : Tile → Tile} (hst : ∀ x, (f x).st = x.st)
    (houtq : ∀ x, (f x).outq = x.outq) : FiringStep s (u.updTile t f) :=
  h.trans ⟨(FabricStep.refl u).updTile t f, fun x => by rw [State.tile_updTile]; split <;> simp [hst],
    fun x => by rw [State.tile_updTile]; split <;> simp [houtq]⟩

/-- A step made for each member of a list. -/
theorem FiringStep.foldl {α : Type} {f : State → α → State} (hf : ∀ w a, FiringStep w (f w a)) (h : FiringStep s u) (l : List α) :
    FiringStep s (l.foldl f u) := by
  induction l generalizing u with
  | nil => exact h
  | cons a l ih => exact ih (h.trans (hf u a))

/-! ## Power tokens, inputs and credits -/

theorem FiringStep.spend (h : FiringStep s u) (id : Nat) (t : TileId) (is : List Nat) : FiringStep s (u.spend id t is) := by
  unfold State.spend
  split
  · exact h.updAct _ fun _ => rfl
  · exact h.updAct _ fun _ => rfl

theorem FiringStep.deliver (h : FiringStep s u) (id : Nat) (t : TileId) (i : Nat) : FiringStep s (u.deliver id t i) := by
  unfold State.deliver
  split
  · split
    · exact h.updTile t (fun _ => rfl) fun _ => rfl
    · exact h
  · exact h

theorem FiringStep.consume (h : FiringStep s u) (t : TileId) (i : Nat) : FiringStep s (u.consume t i) := by
  unfold State.consume
  split
  · exact h
  · rename_i b rest _
    have hread : FiringStep s (u.updTile t fun x =>
        { x with inbuf := x.inbuf.set i rest, touched := x.touched || !(b.tok.ctl && b.tok.mark) }) :=
      h.updTile t (fun _ => rfl) fun _ => rfl
    simp only []
    split
    · exact hread.trans ⟨⟨rfl, rfl, fun _ => rfl⟩, fun _ => rfl, fun _ => rfl⟩
    · exact hread

theorem FiringStep.consumeAll (h : FiringStep s u) (id : Nat) (t : TileId) (is : List Nat) : FiringStep s (u.consumeAll id t is) :=
  h.foldl (fun w i => ((FiringStep.refl w).deliver id t i).consume t i) is

theorem FiringStep.takeCredit (h : FiringStep s u) (id : Nat) (l : Link) : FiringStep s (u.takeCredit id l) := by
  unfold State.takeCredit
  split
  · exact h.trans ⟨⟨rfl, rfl, fun _ => rfl⟩, fun _ => rfl, fun _ => rfl⟩
  · exact h.trans ⟨⟨rfl, rfl, fun _ => rfl⟩, fun _ => rfl, fun _ => rfl⟩

theorem FiringStep.takeAll (h : FiringStep s u) (id : Nat) (t : TileId) (out scene n : Nat) :
    FiringStep s (u.takeAll id t out scene n) :=
  h.foldl (fun w (b : Link × Nat) => (FiringStep.refl w).foldl (fun x _ => (FiringStep.refl x).takeCredit id b.1) (List.range n))
    (u.branches id t out scene)

/-! ## The end of a firing -/

@[simp] theorem Act.updSlot_regs (a : Act) (k : Nat) (f : SceneSlot → SceneSlot) : (a.updSlot k f).regs = a.regs := by
  unfold Act.updSlot
  split <;> rfl

/-- R256: slots that leave RETIRING change acts only, and no registers. -/
theorem State.settle_only (s : State) (id : Nat) : ∃ acts, s.settle id = { s with acts := acts } ∧ SameRegs s (s.settle id) := by
  refine List.foldlRecOn (motive := fun u => ∃ acts, u = { s with acts := acts } ∧ SameRegs s u) _ _
    ⟨_, rfl, SameRegs.refl s⟩ ?_
  rintro u ⟨acts, hu, hregs⟩ k -
  simp only []
  split
  · exact ⟨_, by rw [hu]; rfl, hregs.trans (SameRegs.updAct u id fun _ => Act.updSlot_regs ..)⟩
  · exact ⟨acts, hu, hregs⟩

theorem FabricStep.settle (h : FabricStep s u) (id : Nat) : FabricStep s (u.settle id) := by
  obtain ⟨acts, hu, hregs⟩ := u.settle_only id
  exact h.trans ⟨by rw [hu], by rw [hu], hregs⟩

theorem FabricStep.moved (h : FabricStep s u) (id : Nat) : FabricStep s (u.moved id) := h.updAct id fun _ => rfl

@[simp] theorem State.tile_settle (s : State) (id : Nat) (x : TileId) : (s.settle id).tile x = s.tile x := by
  obtain ⟨acts, hs, -⟩ := s.settle_only id
  rw [hs]
  rfl

@[simp] theorem State.tile_moved (s : State) (id : Nat) (x : TileId) : (s.moved id).tile x = s.tile x := rfl
@[simp] theorem State.tile_count (s : State) (c n k : Nat) (x : TileId) : (s.count c n k).tile x = s.tile x := rfl
@[simp] theorem State.tile_updAct (s : State) (id : Nat) (f : Act → Act) (x : TileId) : (s.updAct id f).tile x = s.tile x := rfl

/-! ## The turn of an element -/

/-- R56, R62, R71: an element that may fire does what it does in its turn. -/
theorem State.fireInTurn_of_mayFire {t : TileId} {e : Element} {n : State → Nat → Nat} {id : Nat} (hown : s.liveOwner t = some id)
    (hmay : MayFire s id t e (n s id)) (f : State → State) : s.fireInTurn t e n f = f s := by
  obtain ⟨hbad, hearly, htokens⟩ := hmay
  have hreached : n s id = 0 ∨ ¬ (s.act (s.act id).regionRoot).tokens < n s id + s.wantsBefore (s.act id).regionRoot t e := by omega
  simp only [State.fireInTurn, hown, State.checked, hbad, State.inTurn, hearly, Bool.false_eq_true, if_false]
  rcases hreached with hnone | hreached
  · simp [hnone]
  · simp [hreached]

end

end Sys2Proof.Machine

/-! SUPPORT. Matrix nodes (R46 to R49, R196 to R199): what the firing of a product and of a one-shot word does to its tile. -/
namespace Sys2Proof.Machine
open Claims

/-- R199: a node changed by a firing in this cycle, which takes its firing slot. -/
def State.stampNode (s : State) (tl : TileId) (f : NodeSt → NodeSt) : State :=
  s.updTile tl fun x => { x.updNode f with nodeNext := s.cycle + 1, lastNode := some s.cycle }

/-- R256, R379: a firing of a node is counted, and the region of its act moves on. -/
def State.noteFiring (s : State) (id : Nat) : State := ((s.count (s.act id).ctx 0x11 1).settle id).moved id

@[simp] theorem State.tile_stampNode (s : State) (tl : TileId) (f : NodeSt → NodeSt) :
    (s.stampNode tl f).tile tl = { (s.tile tl).updNode f with nodeNext := s.cycle + 1, lastNode := some s.cycle } := by
  simp [State.stampNode]

@[simp] theorem State.tile_noteFiring (s : State) (id : Nat) (x : TileId) : (s.noteFiring id).tile x = s.tile x := by
  simp [State.noteFiring]

theorem FabricStep.stampNode {s u : State} (h : FabricStep s u) (tl : TileId) (f : NodeSt → NodeSt) :
    FabricStep s (u.stampNode tl f) :=
  h.updTile ..

theorem FabricStep.noteFiring {s u : State} (h : FabricStep s u) (id : Nat) : FabricStep s (u.noteFiring id) :=
  ((h.count ..).settle id).moved id

@[simp] theorem Tile.updNode_node (x : Tile) (f : NodeSt → NodeSt) : (x.updNode f).st.node = f x.st.node := rfl
@[simp] theorem Tile.updNode_outq (x : Tile) (f : NodeSt → NodeSt) : (x.updNode f).outq = x.outq := rfl

/-! ## Products (R196, R199) -/

/-- R196: the A elements that a firing in scene `sc` under the node word `w` applies. -/
def State.productTerms (s : State) (tl : TileId) (w : Dbl) (sc : Nat) : List NodeTerm :=
  nodeTerms w (lanesAt s tl (nodeAP w) sc) (if nodeMode w = 1 then some (lanesAt s tl (nodeMP w) sc) else none)
    (s.tile tl).st.node.latch

/-- R194, R199: the state of a node after the products of a firing in cycle `now`, which reads the slots of the word until it is done. -/
def NodeSt.afterProducts (n : NodeSt) (w : Dbl) (now : Nat) (terms : List NodeTerm) (lo hi : OpSlot) : NodeSt :=
  { n.apply w terms lo hi with
    latch := n.latch.data, busy := now + (if nodeAF w then 6 else 5),
    reading := n.reading.filter (fun r => decide (now < r.2)) ++ (nodeSlots w).map fun k => (k, now + (if nodeAF w then 6 else 5)) }

/-- R317, R322: a firing of products takes its tokens, changes its node, counts for the cap of its region, and is noted. -/
theorem State.fireNode_eq (s : State) (id : Nat) (tl : TileId) (sc : Nat) (c : TileCfg) : ∃ u root e, FiringStep s u ∧
    s.fireNode id tl sc c =
      ((u.stampNode tl fun n => n.afterProducts c.nodeWord u.cycle (s.productTerms tl c.nodeWord sc)
        (s.readSlot id tl (nodeBS c.nodeWord)) (s.readSlot id tl (nodeBS c.nodeWord + 1))).updAct root
          fun a => { a with mxFired := a.mxFired + 1, mxEnergy := a.mxEnergy + e }).noteFiring id :=
  ⟨_, _, _, ((FiringStep.refl s).spend id tl (c.inputsOf .node)).consumeAll id tl (c.inputsOf .node), rfl⟩

/-- R196, R199: the firing of a product: a step of the fabric, in which the tile stamps its firing and its node applies the terms. -/
theorem State.fireNode_spec (s : State) (id : Nat) (tl : TileId) (sc : Nat) (c : TileCfg) : ∃ t, s.fireNode id tl sc c = t ∧
    FabricStep s t ∧ (t.tile tl).nodeNext = s.cycle + 1 ∧ (t.tile tl).lastNode = some s.cycle ∧
    (t.tile tl).st.node = (s.tile tl).st.node.afterProducts c.nodeWord s.cycle (s.productTerms tl c.nodeWord sc)
      (s.readSlot id tl (nodeBS c.nodeWord)) (s.readSlot id tl (nodeBS c.nodeWord + 1)) := by
  obtain ⟨u, root, e, hu, hfire⟩ := s.fireNode_eq id tl sc c
  refine ⟨_, hfire, .noteFiring (.updAct (hu.toFabricStep.stampNode ..) root ?_) id, by simp [hu.st, hu.cycle]⟩
  exact fun _ => rfl

/-- R60, R196, R322, R427: a node whose word has the mode, free and with power, cap and readable slots, fires. -/
theorem State.tryNode_of_ready {s : State} {tl : TileId} {id sc : Nat} {c : TileCfg} (hown : s.liveOwner tl = some id)
    (hscene : s.firingScene (s.act id) tl .node = some sc) (hcfg : s.cfg tl sc = some c) (hfree : s.nodeFree tl c.nodeWord = true)
    (hshot : (s.tile tl).st.node.oneShot = none) (hfill : s.filling tl (nodeSlots c.nodeWord) = false)
    (hpower : s.powered id tl (c.inputsOf .node) = true) (hcap : s.underCap id = true) (hpoison : nodePoison s id tl c.nodeWord = none)
    (hpledged : s.pledged id tl sc (c.inputsOf .node) = false) :
    s.tryNode tl (nodeMode c.nodeWord) = s.fireNode id tl sc c := by
  simp [State.tryNode, hown, hscene, hcfg, hfree, hshot, hfill, hpower, hcap, hpoison, hpledged]

/-! ## One-shot words (R197 to R199) -/

/-- R197, R199: the end of a one-shot firing: its node keeps no scale where a trigger token set it off, and no one-shot word waits. -/
def State.endOneShot (s : State) (id : Nat) (tl : TileId) (trigger : Bool) : State :=
  (s.stampNode tl fun n => { n with latch := if trigger then Latch.zero else n.latch, oneShot := none }).noteFiring id

theorem FabricStep.endOneShot {s u : State} (h : FabricStep s u) (id : Nat) (tl : TileId) (trigger : Bool) :
    FabricStep s (u.endOneShot id tl trigger) :=
  (h.stampNode ..).noteFiring id

@[simp] theorem State.endOneShot_node (s : State) (id : Nat) (tl : TileId) (trigger : Bool) :
    ((s.endOneShot id tl trigger).tile tl).st.node =
      { (s.tile tl).st.node with latch := if trigger then Latch.zero else (s.tile tl).st.node.latch, oneShot := none } := by
  simp [State.endOneShot]

@[simp] theorem State.endOneShot_outq (s : State) (id : Nat) (tl : TileId) (trigger : Bool) :
    ((s.endOneShot id tl trigger).tile tl).outq = (s.tile tl).outq := by
  simp [State.endOneShot]

/-- R199: the tokens `ks` of a one-shot firing in cycle `now`, as they wait to leave on an output. -/
def placedTokens (now out scene : Nat) (ks : List Token) : List PendingOut :=
  (List.range ks.length).map fun j =>
    { due := now + 4 + j, out := out, scene := scene, tok := (ks[j]?).getD (closeTok scene), paid := true }

@[simp] theorem placedTokens_one (now out scene : Nat) (k : Token) :
    placedTokens now out scene [k] = [{ due := now + 4, out := out, scene := scene, tok := k, paid := true }] := rfl
@[simp] theorem placedTokens_two (now out scene : Nat) (k l : Token) : placedTokens now out scene [k, l] =
    [{ due := now + 4, out := out, scene := scene, tok := k, paid := true },
     { due := now + 5, out := out, scene := scene, tok := l, paid := true }] := rfl

section
variable {s u : State}

theorem FabricStep.nodePlace (h : FabricStep s u) (id : Nat) (tl : TileId) (out scene : Nat) (ks : List Token) :
    FabricStep s (u.nodePlace id tl out scene ks) := by
  unfold State.nodePlace
  exact .updTile (h.trans ((FiringStep.refl u).takeAll ..).toFabricStep) ..

@[simp] theorem State.nodePlace_st (s : State) (id : Nat) (tl : TileId) (out scene : Nat) (ks : List Token) :
    ((s.nodePlace id tl out scene ks).tile tl).st = (s.tile tl).st := by
  have htake := (FiringStep.refl s).takeAll id tl out scene ks.length
  simp [State.nodePlace, htake.st]

@[simp] theorem State.nodePlace_outq (s : State) (id : Nat) (tl : TileId) (out scene : Nat) (ks : List Token) :
    ((s.nodePlace id tl out scene ks).tile tl).outq = (s.tile tl).outq ++ placedTokens s.cycle out scene ks := by
  have htake := (FiringStep.refl s).takeAll id tl out scene ks.length
  simp [State.nodePlace, placedTokens, htake.outq, htake.cycle]

end

/-- R46, R198: what ACC.CLR does. -/
def State.clearAcc (s : State) (tl : TileId) : State :=
  s.updTile tl fun x => x.updNode fun n => { n with acc := List.replicate 32 0, nan := 0 }

/-- R198: a column of a node does not fit the drain format of a word. -/
def NodeSt.drainSat (n : NodeSt) (w : Dbl) : Bool :=
  (List.range 32).any fun i => (drainCol (nodeDF w) ((n.acc[i]?).getD 0) (n.nan.getLsbD i)).2

/-- R49, R198: what DRAIN does. -/
def State.placeDrain (s : State) (id : Nat) (tl : TileId) (sc : Nat) (w : Dbl) : State :=
  let n := (s.tile tl).st.node
  (s.nodePlace id tl (nodeOP w) sc [n.drainTok w sc 0, n.drainTok w sc 1]).updTile tl
    fun x => x.updNode fun k => { k with lsat := k.lsat || n.drainSat w }

/-- R48, R198: what SAT does. -/
def State.placeSat (s : State) (id : Nat) (tl : TileId) (sc : Nat) (w : Dbl) : State :=
  let s := s.nodePlace id tl (nodeOP w) sc [(s.tile tl).st.node.satTok sc]
  if w.getLsbD 39 then s.updTile tl fun x => x.updNode fun n => { n with lsat := false, asat := false, aund := false } else s

section
variable {s u : State} (h : FabricStep s u) (id : Nat) (tl : TileId) (sc : Nat) (w : Dbl)
include h

theorem FabricStep.clearAcc : FabricStep s (u.clearAcc tl) := h.updTile ..

theorem FabricStep.placeDrain : FabricStep s (u.placeDrain id tl sc w) := by
  unfold State.placeDrain
  exact .updTile (h.nodePlace ..) ..

theorem FabricStep.placeSat : FabricStep s (u.placeSat id tl sc w) := by
  unfold State.placeSat
  split
  · exact .updTile (h.nodePlace ..) ..
  · exact h.nodePlace ..

end

section
variable (s : State) (id : Nat) (tl : TileId) (sc : Nat) (w : Dbl)

@[simp] theorem State.clearAcc_node :
    ((s.clearAcc tl).tile tl).st.node = { (s.tile tl).st.node with acc := List.replicate 32 0, nan := 0 } := by
  simp [State.clearAcc]

@[simp] theorem State.placeDrain_node : ((s.placeDrain id tl sc w).tile tl).st.node =
    { (s.tile tl).st.node with lsat := (s.tile tl).st.node.lsat || (s.tile tl).st.node.drainSat w } := by
  simp [State.placeDrain]

@[simp] theorem State.placeDrain_outq : ((s.placeDrain id tl sc w).tile tl).outq = (s.tile tl).outq ++
    placedTokens s.cycle (nodeOP w) sc [(s.tile tl).st.node.drainTok w sc 0, (s.tile tl).st.node.drainTok w sc 1] := by
  simp [State.placeDrain]

/-- R198: a SAT word with bit 39 clears the flags that it has read. -/
@[simp] theorem State.placeSat_node : ((s.placeSat id tl sc w).tile tl).st.node =
    { (s.tile tl).st.node with
      lsat := (s.tile tl).st.node.lsat && !w.getLsbD 39, asat := (s.tile tl).st.node.asat && !w.getLsbD 39,
      aund := (s.tile tl).st.node.aund && !w.getLsbD 39 } := by
  cases hclear : w.getLsbD 39 <;> simp [State.placeSat, hclear, -BitVec.getLsbD_eq_getElem]

@[simp] theorem State.placeSat_outq : ((s.placeSat id tl sc w).tile tl).outq =
    (s.tile tl).outq ++ placedTokens s.cycle (nodeOP w) sc [(s.tile tl).st.node.satTok sc] := by
  cases hclear : w.getLsbD 39 <;> simp [State.placeSat, hclear, -BitVec.getLsbD_eq_getElem]

end

/-! ## One-shot firings -/

section
variable {s : State} {tl : TileId} {id sc : Nat} {c : TileCfg} {trigger : Bool} (hown : s.liveOwner tl = some id)
  (hfree : slotFree s tl .node = true) (hticks : s.ticks tl = true) (hbusy : (s.tile tl).st.node.busy ≤ s.cycle)
  (hpower : s.powered id tl (if trigger then [nodeAP c.nodeWord] else []) = true)
  (hpledged : s.pledged id tl sc (if trigger then [nodeAP c.nodeWord] else []) = false)
include hown hfree hticks hbusy hpower hpledged

/-- R197, R199: a one-shot word that may fire, with the room that it needs, takes its tokens, does what it does, and ends. -/
theorem State.tryOneShot_of_ready {mode credits : Nat} (hscene : s.oneShotScene id tl mode = some (sc, c, trigger))
    (hroom : credits = 0 ∨ s.roomOn id tl (nodeOP c.nodeWord) sc credits = true) (f : State → Nat → Nat → TileCfg → State) :
    ∃ u, FiringStep s u ∧ s.tryOneShot tl mode credits f = (f u id sc c).endOneShot id tl trigger := by
  refine ⟨_, ((FiringStep.refl s).spend id tl (if trigger then [nodeAP c.nodeWord] else [])).consumeAll id tl
    (if trigger then [nodeAP c.nodeWord] else []), ?_⟩
  have hnotBusy : ¬ s.cycle < (s.tile tl).st.node.busy := by omega
  have hcredits : (credits == 0 || s.roomOn id tl (nodeOP c.nodeWord) sc credits) = true := by simpa using hroom
  simp only [State.tryOneShot, hown, hscene, hfree, hticks, hnotBusy, hcredits, hpower, hpledged, Bool.not_true, Bool.or_self,
    decide_false, Bool.false_eq_true, if_false]
  rfl

theorem State.tryAccClr_of_ready (hscene : s.oneShotScene id tl 2 = some (sc, c, trigger)) :
    ∃ u, FiringStep s u ∧ s.tryAccClr tl = (u.clearAcc tl).endOneShot id tl trigger :=
  State.tryOneShot_of_ready hown hfree hticks hbusy hpower hpledged hscene (.inl rfl) _

theorem State.tryDrain_of_ready (hscene : s.oneShotScene id tl 3 = some (sc, c, trigger))
    (hroom : s.roomOn id tl (nodeOP c.nodeWord) sc 2 = true) :
    ∃ u, FiringStep s u ∧ s.tryDrain tl = (u.placeDrain id tl sc c.nodeWord).endOneShot id tl trigger :=
  State.tryOneShot_of_ready hown hfree hticks hbusy hpower hpledged hscene (.inr hroom) _

theorem State.trySat_of_ready (hscene : s.oneShotScene id tl 4 = some (sc, c, trigger))
    (hroom : s.roomOn id tl (nodeOP c.nodeWord) sc 1 = true) :
    ∃ u, FiringStep s u ∧ s.trySat tl = (u.placeSat id tl sc c.nodeWord).endOneShot id tl trigger :=
  State.tryOneShot_of_ready hown hfree hticks hbusy hpower hpledged hscene (.inr hroom) _

end

end Sys2Proof.Machine

namespace Sys2Proof.Claims
open Sys2Proof Machine

theorem productsApplied : ProductsApplied := by
  intro s i tl mode id sc c w hi hown hscene hcfg hw hmode hfree hshot hfill hpower hcap hpoison hmay hpledged
  subst hw hmode
  have hexec : exec i s = .next (s.tryNode tl (nodeMode c.nodeWord)) := by
    rcases hi with ⟨rfl, hmm⟩ | ⟨rfl, hsp⟩
    · rw [hmm]
      exact congrArg Host.Outcome.next (State.fireInTurn_of_mayFire hown hmay _)
    · rw [hsp]
      exact congrArg Host.Outcome.next (State.fireInTurn_of_mayFire hown hmay _)
  obtain ⟨t, hfire, hstep, hnext, hlast, hnode⟩ := s.fireNode_spec id tl sc c
  rw [State.tryNode_of_ready hown hscene hcfg hfree hshot hfill hpower hcap hpoison hpledged, hfire] at hexec
  exact ⟨t, hexec, hstep.mem, hstep.regs, hnext, hlast, hnode⟩

theorem oneShots : OneShots := by
  intro s tl id sc c trigger n hown hfree hticks hbusy hpower hn hmay hpledged
  subst hn
  have hturn (f : State → State) : s.fireInTurn tl .node (fun s id => (s.nodeWants id tl).toNat) f = f s :=
    State.fireInTurn_of_mayFire hown hmay f
  refine ⟨fun hscene => ?_, fun hscene hroom => ?_, fun hscene hroom => ?_⟩
  · obtain ⟨u, hu, hfire⟩ := State.tryAccClr_of_ready hown hfree hticks hbusy hpower hpledged hscene
    have hstep := (hu.toFabricStep.clearAcc tl).endOneShot id tl trigger
    refine ⟨_, congrArg Host.Outcome.next ((hturn _).trans hfire), hstep.mem, hstep.regs, ?_⟩
    simp [hu.st]
  · obtain ⟨u, hu, hfire⟩ := State.tryDrain_of_ready hown hfree hticks hbusy hpower hpledged hscene hroom
    have hstep := (hu.toFabricStep.placeDrain id tl sc c.nodeWord).endOneShot id tl trigger
    refine ⟨_, congrArg Host.Outcome.next ((hturn _).trans hfire), hstep.mem, hstep.regs, ?_⟩
    simp [hu.st, hu.outq, hu.cycle]
  · obtain ⟨u, hu, hfire⟩ := State.trySat_of_ready hown hfree hticks hbusy hpower hpledged hscene hroom
    have hstep := (hu.toFabricStep.placeSat id tl sc c.nodeWord).endOneShot id tl trigger
    refine ⟨_, congrArg Host.Outcome.next ((hturn _).trans hfire), hstep.mem, hstep.regs, ?_⟩
    simp [hu.st, hu.outq, hu.cycle]

/-- Settles O41: products by the firing of a free node, one-shot words by what they do between taking their tokens and their end. That
products are applied in the cycle of their firing, and that a slot without an owner reads as zero, is the model's reading
[log 77 DEDUCED]. -/
theorem nodesFire : Obligations.NodesFire := ⟨productsApplied, oneShots⟩

end Sys2Proof.Claims

/-! SUPPORT. Outgoing tokens (R61, R170, R186): what joins those of a tile, behind its earlier ones. -/
namespace Sys2Proof.Machine
open Claims

/-- A step of the fabric by which the tokens `new` join the outgoing ones of a tile, whose elements keep what they have. -/
structure OutStep (tl : TileId) (new : List PendingOut) (s u : State) : Prop extends FabricStep s u where
  st : (u.tile tl).st = (s.tile tl).st
  outq : (u.tile tl).outq = (s.tile tl).outq ++ new

/-- R61: a token joins the outgoing ones of a tile. -/
def State.queueOut (s : State) (tl : TileId) (p : PendingOut) : State := s.updTile tl fun x => { x with outq := x.outq ++ [p] }

section
variable {tl : TileId} {s u v : State} {new more : List PendingOut}

theorem FiringStep.toOutStep (h : FiringStep s u) (tl : TileId) : OutStep tl [] s u :=
  ⟨h.toFabricStep, h.st tl, by rw [h.outq, List.append_nil]⟩

theorem OutStep.trans (h : OutStep tl new s u) (h' : OutStep tl more u v) : OutStep tl (new ++ more) s v :=
  ⟨h.toFabricStep.trans h'.toFabricStep, h'.st.trans h.st, by rw [h'.outq, h.outq, List.append_assoc]⟩

theorem OutStep.transFiring (h : OutStep tl new s u) (h' : FiringStep u v) : OutStep tl new s v := by
  simpa using h.trans (h'.toOutStep tl)

theorem OutStep.kept (h : OutStep tl new s u) : ∀ p ∈ (s.tile tl).outq, p ∈ (u.tile tl).outq := by
  intro p hp
  rw [h.outq]
  exact List.mem_append_left _ hp

theorem OutStep.placed (h : OutStep tl new s u) : ∀ p ∈ new, p ∈ (u.tile tl).outq := by
  intro p hp
  rw [h.outq]
  exact List.mem_append_right _ hp

theorem OutStep.queueOut (s : State) (tl : TileId) (p : PendingOut) : OutStep tl [p] s (s.queueOut tl p) :=
  ⟨(FabricStep.refl s).updTile tl _, by simp [State.queueOut], by simp [State.queueOut]⟩

/-- Tokens that join for each member of a list, whatever has joined before, stand in the order of the list. -/
theorem OutStep.foldl {α : Type} {f : State → α → State} {g : α → List PendingOut}
    (hf : ∀ w a, w.cycle = s.cycle → OutStep tl (g a) w (f w a)) (l : List α) : OutStep tl (l.flatMap g) s (l.foldl f s) := by
  suffices h : ∀ w, w.cycle = s.cycle → OutStep tl (l.flatMap g) w (l.foldl f w) from h s rfl
  induction l with
  | nil => exact fun w _ => (FiringStep.refl w).toOutStep tl
  | cons a l ih =>
    intro w hw
    have hstep := hf w a hw
    exact hstep.trans (ih _ (hstep.cycle.trans hw))

/-- One token joins for each member of a list. -/
theorem OutStep.foldl_each {α : Type} {f : State → α → State} {P : α → PendingOut → Prop}
    (hf : ∀ w a, ∃ p, P a p ∧ OutStep tl [p] w (f w a)) (s : State) (l : List α) :
    ∃ new, OutStep tl new s (l.foldl f s) ∧ ∀ a ∈ l, ∃ p ∈ new, P a p := by
  induction l generalizing s with
  | nil => exact ⟨[], (FiringStep.refl s).toOutStep tl, by simp⟩
  | cons a l ih =>
    obtain ⟨p, hp, hstep⟩ := hf s a
    obtain ⟨new, hrest, hnew⟩ := ih (f s a)
    refine ⟨p :: new, hstep.trans hrest, fun b hb => ?_⟩
    rcases List.mem_cons.1 hb with rfl | hb
    · exact ⟨p, List.mem_cons_self, hp⟩
    · obtain ⟨q, hq, hbq⟩ := hnew b hb
      exact ⟨q, List.mem_cons_of_mem _ hq, hbq⟩

/-- R61: a token queued on the outputs `outs` of an element, each time behind what waits there. -/
def State.queueEach (s : State) (tl : TileId) (e : Element) (scene : Nat) (tok : Token) (paid : Bool) (outs : List Nat) : State :=
  outs.foldl (fun w o => w.queueOut tl { due := passDue w tl e o, out := o, scene := scene, tok := tok, paid := paid }) s

theorem OutStep.queueEach (s : State) (tl : TileId) (e : Element) (scene : Nat) (tok : Token) (paid : Bool) (outs : List Nat) :
    ∃ new, OutStep tl new s (s.queueEach tl e scene tok paid outs) ∧
      ∀ o ∈ outs, ∃ p ∈ new, p.out = o ∧ p.scene = scene ∧ p.tok = tok ∧ p.paid = paid :=
  OutStep.foldl_each (fun w _ => ⟨_, ⟨rfl, rfl, rfl, rfl⟩, .queueOut w tl _⟩) s outs

end

end Sys2Proof.Machine

/-! SUPPORT. Pipelines (R60, R61, R164, R168 to R170, R186): what a firing places and keeps, and the closes that a source owes. -/
namespace Sys2Proof.Machine
open Claims

/-! ## What a firing places (R168, R170, R185, R189) -/

theorem FiringStep.giveBack {s u : State} (h : FiringStep s u) (id : Nat) (tl : TileId) (o scene due : Nat) :
    FiringStep s (u.giveBack id tl o scene due) := by
  refine h.foldl (fun w b => ?_) (u.branches id tl o scene)
  split <;> exact ⟨⟨rfl, rfl, fun _ => rfl⟩, fun _ => rfl, fun _ => rfl⟩

/-- R185: the credits that no token used go back, or there are none. -/
theorem FiringStep.giveBack_unless (s : State) (c : Prop) [Decidable c] (id : Nat) (tl : TileId) (o scene due : Nat) :
    FiringStep s (if c then s else s.giveBack id tl o scene due) := by
  split
  · exact .refl s
  · exact (FiringStep.refl s).giveBack ..

/-- R185: a firing that places its tokens on output `k` takes their credits, and those that no token uses go back. -/
theorem State.firePlace_eq (s : State) (id : Nat) (tl : TileId) (x : PipeFiring) (l : List Lanes) (r : PipeOut) (k : Nat) :
    ∃ u v : State, FiringStep s u ∧ v = u.updTile tl (fun y => { y with outq := y.outq ++ firedTokens u x l r k }) ∧
      FiringStep v (s.firePlace id tl x l r k) := by
  refine ⟨s.takeAll id tl k x.scene (x.needOn l k), _, (FiringStep.refl s).takeAll .., rfl, ?_⟩
  simp only [State.firePlace, firedTokens, Bool.and_eq_true, bne_iff_ne, List.append_assoc]
  exact .giveBack_unless ..

theorem OutStep.firePlace (s : State) (id : Nat) (tl : TileId) (x : PipeFiring) (l : List Lanes) (r : PipeOut) (k : Nat) :
    OutStep tl (firedTokens s x l r k) s (s.firePlace id tl x l r k) := by
  obtain ⟨u, v, hu, hv, hend⟩ := s.firePlace_eq id tl x l r k
  have hjoin : OutStep tl (firedTokens u x l r k) u v := by
    subst hv
    exact ⟨(FabricStep.refl u).updTile tl _, by simp, by simp⟩
  have hcycle : firedTokens u x l r k = firedTokens s x l r k := by simp only [firedTokens, hu.cycle]
  simpa [hcycle] using ((hu.toOutStep tl).trans hjoin).transFiring hend

/-! ## Firings (R61, R164, R169) -/

/-- R164, R169: the pipeline of a tile after a firing in this cycle: what it keeps for the scene, and when it may fire again. -/
def State.stampPipe (s : State) (tl : TileId) (scene : Nat) (st : SceneSt) (next : Nat) : State :=
  s.updTile tl fun y =>
    { y with st := { y.st with scenes := y.st.scenes.set scene st }, pipeNext := next, lastPipe := some s.cycle, fired := true }

/-- R178, R240, R379: a firing of a pipeline is counted with the encodings that saturated, and a source tells its marks. -/
def State.notePipe (s : State) (id sats : Nat) (source : Bool) : State :=
  let counted := (s.count (s.act id).ctx 0x10 1).count (s.act id).ctx 0x40 sats
  ((if source then counted.updAct id Act.sourceFired else counted).settle id).moved id

@[simp] theorem Act.sourceFired_regs (a : Act) : a.sourceFired.regs = a.regs := by
  unfold Act.sourceFired
  split
  · rfl
  · split <;> rfl

theorem FabricStep.stampPipe {s u : State} (h : FabricStep s u) (tl : TileId) (scene : Nat) (st : SceneSt) (next : Nat) :
    FabricStep s (u.stampPipe tl scene st next) :=
  h.updTile ..

theorem FabricStep.notePipe {s u : State} (h : FabricStep s u) (id sats : Nat) (source : Bool) :
    FabricStep s (u.notePipe id sats source) := by
  have hcount := (h.count (u.act id).ctx 0x10 1).count (u.act id).ctx 0x40 sats
  unfold State.notePipe
  cases source
  · exact (hcount.settle id).moved id
  · exact ((hcount.updAct id Act.sourceFired_regs).settle id).moved id

@[simp] theorem State.tile_stampPipe (s : State) (tl : TileId) (scene : Nat) (st : SceneSt) (next : Nat) :
    (s.stampPipe tl scene st next).tile tl =
      { s.tile tl with
        st := { (s.tile tl).st with scenes := (s.tile tl).st.scenes.set scene st }, pipeNext := next, lastPipe := some s.cycle,
        fired := true } := by
  simp [State.stampPipe]

@[simp] theorem State.tile_notePipe (s : State) (id sats : Nat) (source : Bool) (x : TileId) :
    (s.notePipe id sats source).tile x = s.tile x := by
  cases source <;> simp [State.notePipe]

/-- R168: what the words of a firing leave, from the lane-local registers of its scene. -/
def State.pipeResult (s : State) (tl : TileId) (x : PipeFiring) : PipeOut := pipeFire x.e x.c.stages (s.sceneSt tl x.scene).l

/-- R61, R169, R170: a firing places its tokens and consumes its inputs, then its tile is stamped and the firing noted. -/
theorem State.fire_eq (s : State) (id : Nat) (tl : TileId) (x : PipeFiring) : ∃ u next source,
    OutStep tl ((x.c.outputsOf .pipe).flatMap (firedTokens s x (s.sceneSt tl x.scene).l (s.pipeResult tl x))) s u ∧
    s.fire id tl x =
      (u.stampPipe tl x.scene (x.after (s.sceneSt tl x.scene) (s.pipeResult tl x)) next).notePipe id (s.pipeResult tl x).sats source := by
  have hspend := (FiringStep.refl s).spend id tl x.eats
  have hplace := OutStep.foldl (s := s.spend id tl x.eats) (fun w k hw => by
    have hstep := OutStep.firePlace w id tl x (s.sceneSt tl x.scene).l (s.pipeResult tl x) k
    simpa only [firedTokens, hw.trans hspend.cycle] using hstep) (x.c.outputsOf .pipe)
  exact ⟨_, _, _, ((hspend.toOutStep tl).trans hplace).transFiring ((FiringStep.refl _).consumeAll id tl x.eats), rfl⟩

/-- R61, R164, R169, R170: the firing of a pipeline: a step of the fabric that places tokens, and the registers and counter kept. -/
theorem State.fire_spec (s : State) (id : Nat) (tl : TileId) (x : PipeFiring) : ∃ t, s.fire id tl x = t ∧ FabricStep s t ∧
    (t.tile tl).outq = (s.tile tl).outq ++
      (x.c.outputsOf .pipe).flatMap (firedTokens s x (s.sceneSt tl x.scene).l (s.pipeResult tl x)) ∧
    (t.tile tl).st.scenes = (s.tile tl).st.scenes.set x.scene (x.after (s.sceneSt tl x.scene) (s.pipeResult tl x)) ∧
    (t.tile tl).lastPipe = some s.cycle := by
  obtain ⟨u, next, source, hplaced, hfire⟩ := s.fire_eq id tl x
  exact ⟨_, hfire, (hplaced.toFabricStep.stampPipe ..).notePipe .., by simp [hplaced.outq, hplaced.st, hplaced.cycle]⟩

/-- R60: a pipeline that may fire, with power, fires. -/
theorem State.tryFire_of_ready {s : State} {tl : TileId} {id : Nat} {x : PipeFiring} (hown : s.liveOwner tl = some id)
    (hfiring : s.pipeFiring id tl = some x) (hfree : s.pipeFree tl x = true) (hroom : s.pipeRoom id tl x = true)
    (hpower : s.powered id tl x.eats = true) (hpledged : s.pledged id tl x.scene (x.c.inputsOf .pipe) = false) :
    s.tryFire tl = s.fire id tl x := by
  simp [State.tryFire, hown, hfiring, hfree, hroom, hpower, hpledged]

/-! ## Stream closes (R186) -/

/-- R186: the closes that the source of a tile owes under the scenes `scs` have joined its outgoing tokens. -/
structure CloseStep (tl : TileId) (scs : List Nat) (s u : State) : Prop extends FabricStep s u where
  kept : ∀ p ∈ (s.tile tl).outq, p ∈ (u.tile tl).outq
  closes : ∀ sc, (u.sceneSt tl sc).closes = if sc ∈ scs then [] else (s.sceneSt tl sc).closes
  placed : ∀ sc ∈ scs, ∀ o ∈ (s.sceneSt tl sc).closes, ∃ p ∈ (u.tile tl).outq, p.out = o ∧ p.scene = sc ∧ p.tok = closeTok sc

/-- R186: the source of a tile that owes no close has nothing to do. -/
theorem CloseStep.of_none_owed {tl : TileId} {scs : List Nat} {s : State} (h : ∀ sc ∈ scs, (s.sceneSt tl sc).closes = []) :
    CloseStep tl scs s s := by
  refine ⟨.refl s, fun _ hp => hp, fun sc => ?_, fun sc hsc o ho => ?_⟩
  · by_cases hsc : sc ∈ scs
    · simp [hsc, h sc hsc]
    · simp [hsc]
  · simp [h sc hsc] at ho

theorem CloseStep.cons {tl : TileId} {sc : Nat} {scs : List Nat} {s u v : State} (h : CloseStep tl [sc] s u)
    (h' : CloseStep tl scs u v) : CloseStep tl (sc :: scs) s v := by
  refine ⟨h.toFabricStep.trans h'.toFabricStep, fun p hp => h'.kept p (h.kept p hp), fun k => ?_, fun k hk o ho => ?_⟩
  · by_cases hsc : k = sc <;> simp [h'.closes, h.closes, hsc]
  · by_cases hsc : k = sc
    · obtain ⟨p, hp, hclose⟩ := h.placed k (by simp [hsc]) o ho
      exact ⟨p, h'.kept p hp, hclose⟩
    · exact h'.placed k (by simpa [hsc] using hk) o (by simpa [h.closes, hsc] using ho)

/-- R186: what each scene owes once one owes no close; a scene of which a tile keeps nothing owes none. -/
theorem SceneSt.closes_getD_set (l : List SceneSt) (i j : Nat) {x : SceneSt} (hx : x.closes = []) :
    (((l.set i x)[j]?).getD SceneSt.zero).closes = if j = i then [] else ((l[j]?).getD SceneSt.zero).closes := by
  by_cases hij : j = i
  · subst hij
    by_cases hlen : j < l.length
    · simp [hlen, hx]
    · simp [hlen, SceneSt.zero]
  · simp [hij, Ne.symm hij]

/-- R186: the closes that a scene owes are queued, and owed no more. -/
theorem State.pushCloses_eq (s : State) (tl : TileId) (sc : Nat) : ∃ u new, OutStep tl new s u ∧
    (∀ o ∈ (s.sceneSt tl sc).closes, ∃ p ∈ new, p.out = o ∧ p.scene = sc ∧ p.tok = closeTok sc) ∧
    s.pushCloses tl sc = u.updTile tl fun y =>
      { y with st := { y.st with scenes := y.st.scenes.set sc { s.sceneSt tl sc with closes := [] } } } := by
  obtain ⟨new, hstep, hnew⟩ := OutStep.queueEach s tl .pipe sc (closeTok sc) false (s.sceneSt tl sc).closes
  refine ⟨_, new, hstep, fun o ho => ?_, rfl⟩
  obtain ⟨p, hp, hout, hscene, htok, -⟩ := hnew o ho
  exact ⟨p, hp, hout, hscene, htok⟩

theorem CloseStep.pushCloses (s : State) (tl : TileId) (sc : Nat) : CloseStep tl [sc] s (s.pushCloses tl sc) := by
  obtain ⟨u, new, hstep, hnew, hpush⟩ := s.pushCloses_eq tl sc
  rw [hpush]
  refine ⟨hstep.toFabricStep.updTile tl _, fun p hp => ?_, fun k => ?_, fun k hk o ho => ?_⟩
  · simpa using hstep.kept p hp
  · simp [State.sceneSt, SceneSt.closes_getD_set, hstep.st]
  · obtain rfl : k = sc := by simpa using hk
    obtain ⟨p, hp, hclose⟩ := hnew o ho
    exact ⟨p, by simpa using hstep.placed p hp, hclose⟩

/-- R186: a scene of a source that owes no close is passed over. -/
theorem CloseStep.pushOwed (s : State) (tl : TileId) (sc : Nat) :
    CloseStep tl [sc] s (if (s.sceneSt tl sc).closes = [] then s else s.pushCloses tl sc) := by
  split
  case isTrue hnone => exact .of_none_owed (by simpa using hnone)
  case isFalse => exact .pushCloses s tl sc

theorem CloseStep.foldl (tl : TileId) (scs : List Nat) (s : State) : CloseStep tl scs s
    (scs.foldl (fun w sc => if (w.sceneSt tl sc).closes = [] then w else w.pushCloses tl sc) s) := by
  induction scs generalizing s with
  | nil => exact .of_none_owed (by simp)
  | cons sc scs ih => exact (CloseStep.pushOwed s tl sc).cons (ih _)

theorem CloseStep.moved {tl : TileId} {scs : List Nat} {s u : State} (h : CloseStep tl scs s u) (id : Nat) :
    CloseStep tl scs s (u.moved id) :=
  ⟨h.toFabricStep.moved id, h.kept, h.closes, h.placed⟩

theorem exec_genStreamClose {s : State} {tl : TileId} {id : Nat} (hown : s.liveOwner tl = some id) :
    ∃ t, exec (.genStreamClose tl) s = .next t ∧ CloseStep tl (List.range 4) s t := by
  refine ⟨_, rfl, ?_⟩
  simp only [hown]
  split
  case isTrue hnone => exact .of_none_owed (by simpa using hnone)
  case isFalse => exact (CloseStep.foldl tl _ s).moved id

end Sys2Proof.Machine

namespace Sys2Proof.Claims
open Sys2Proof Machine

theorem pipelineFires : PipelineFires := by
  intro s tl id x l r hown hfiring hfree hroom hpower hmay hpledged hl hr
  subst hl hr
  obtain ⟨t, hfire, hstep, hplaced⟩ := s.fire_spec id tl x
  have hexec : exec (.pipelineFiring tl) s = .next (s.tryFire tl) :=
    congrArg Host.Outcome.next (State.fireInTurn_of_mayFire hown hmay _)
  rw [State.tryFire_of_ready hown hfiring hfree hroom hpower hpledged, hfire] at hexec
  exact ⟨t, hexec, hstep.mem, hstep.regs, hplaced⟩

theorem genCloses : GenCloses := by
  intro s tl id hown
  obtain ⟨t, hexec, hstep⟩ := exec_genStreamClose hown
  refine ⟨t, hexec, hstep.mem, hstep.regs, hstep.kept, fun sc hsc => ?_⟩
  have hmem : sc ∈ List.range 4 := List.mem_range.2 hsc
  exact ⟨by simp [hstep.closes, hmem], hstep.placed sc hmem⟩

/-- Settles O40: pipelines by what a firing places on each output and keeps for its scene, the closes of a source by what queueing those
of one scene leaves for the others. Where the rules are silent on when a pipeline may fire, the readings are the model's own: the inputs
of a MERGE, a source behind a curtain or in a quiescent region, and the credits kept for waiting tokens [logs 74, 75, 76 and 123
DEDUCED]. -/
theorem pipelinesFire : Obligations.PipelinesFire := ⟨pipelineFires, genCloses⟩

end Sys2Proof.Claims

/-! SUPPORT. Zero-slot circuits (R59, R62): the requests that an element makes, and what becomes of one that is refused. -/
namespace Sys2Proof.Machine
open Claims

section
variable {s u : State}

theorem FabricStep.takePower (h : FabricStep s u) (id : Nat) : FabricStep s (u.takePower id) := h.updAct _ fun _ => rfl

theorem FabricStep.refuse (h : FabricStep s u) (id : Nat) (t : TileId) : FabricStep s (u.refuse id t) := by
  unfold State.refuse
  split
  · exact h
  · refine .updAct (.updAct h _ ?_) id ?_ <;> exact fun _ => rfl

@[simp] theorem State.refuse_fab (s : State) (id : Nat) (t : TileId) : (s.refuse id t).fab = s.fab := by
  unfold State.refuse
  split <;> rfl

/-- R319: a refusal counts for a region, which keeps its power tokens. -/
theorem State.refuse_act (s : State) (id : Nat) (t : TileId) (j : Nat) : ∃ refused refusing,
    (s.refuse id t).act j = { s.act j with refused := refused, refusing := refusing } := by
  unfold State.refuse
  split
  · exact ⟨_, _, rfl⟩
  · rw [State.act_updAct, State.act_updAct]
    split <;> split <;> exact ⟨_, _, rfl⟩

/-- R62: the power tokens left to the region of an act. -/
def State.powerLeft (s : State) (id : Nat) : Nat := (s.act (s.act id).regionRoot).tokens

@[simp] theorem State.powerLeft_refuse (s : State) (id : Nat) (t : TileId) (j : Nat) :
    (s.refuse id t).powerLeft j = s.powerLeft j := by
  obtain ⟨_, _, hact⟩ := s.refuse_act id t j
  have hroot : ((s.refuse id t).act j).regionRoot = (s.act j).regionRoot := by rw [hact]; rfl
  obtain ⟨_, _, hregion⟩ := s.refuse_act id t (s.act j).regionRoot
  rw [State.powerLeft, State.powerLeft, hroot, hregion]

/-! ## The requests that are made -/

/-- R59: the requests that act `id` makes at an input under scenes `scs`. -/
def State.newRequests (s : State) (id : Nat) (t : TileId) (i : Nat) (scs : List Nat) : List (Link × Nat) :=
  (s.acts.flatMap fun p => (s.linksInto p.1 t i).filter fun b =>
    s.linkSlots p.1 b.1 == 0 && (p.1 != id || scs.contains b.1.scene)).map fun b => (b.1, s.cycle + b.2)

theorem State.request_eq (s : State) (id : Nat) (t : TileId) (i : Nat) (scs : List Nat) : s.request id t i scs =
    if s.newRequests id t i scs = [] then s
    else { s.takePower id with
      fab := { (s.takePower id).fab with requests := (s.takePower id).fab.requests ++ s.newRequests id t i scs } } := rfl

theorem State.dest_of_mem_linksInto {id : Nat} {t : TileId} {i : Nat} {b : Link × Nat} (h : b ∈ s.linksInto id t i) :
    b.1.dest = .input t i := by
  simp only [State.linksInto, List.mem_flatMap] at h
  obtain ⟨x, -, sc, -, hb⟩ := h
  split at hb
  · simp at hb
  · simp only [List.mem_flatMap, List.mem_filter, beq_iff_eq] at hb
    obtain ⟨o, -, -, hdest⟩ := hb
    exact hdest

theorem State.mem_newRequests {id : Nat} {t : TileId} {i : Nat} {scs : List Nat} {p : Nat × Act} {b : Link × Nat} (hp : p ∈ s.acts)
    (hb : b ∈ s.linksInto p.1 t i) (hslots : s.linkSlots p.1 b.1 = 0) (hscene : p.1 ≠ id ∨ b.1.scene ∈ scs) :
    (b.1, s.cycle + b.2) ∈ s.newRequests id t i scs := by
  simp only [State.newRequests, List.mem_map, List.mem_flatMap, List.mem_filter]
  exact ⟨b, ⟨p, hp, hb, by simpa [hslots] using hscene⟩, rfl⟩

theorem State.dest_of_mem_newRequests {id : Nat} {t : TileId} {i : Nat} {scs : List Nat} {r : Link × Nat}
    (h : r ∈ s.newRequests id t i scs) : r.1.dest = .input t i := by
  simp only [State.newRequests, List.mem_map, List.mem_flatMap, List.mem_filter] at h
  obtain ⟨b, ⟨p, -, hb, -⟩, rfl⟩ := h
  exact State.dest_of_mem_linksInto (b := b) hb

@[simp] theorem State.request_requests (s : State) (id : Nat) (t : TileId) (i : Nat) (scs : List Nat) :
    (s.request id t i scs).fab.requests = s.fab.requests ++ s.newRequests id t i scs := by
  rw [State.request_eq]
  split
  case isTrue hnone => rw [hnone, List.append_nil]
  case isFalse => rfl

theorem FabricStep.request (s : State) (id : Nat) (t : TileId) (i : Nat) (scs : List Nat) : FabricStep s (s.request id t i scs) := by
  rw [State.request_eq]
  split
  · exact .refl s
  · exact ((FabricStep.refl s).takePower id).trans ⟨rfl, rfl, fun _ => rfl⟩

/-- R59: no element asks for a token at an input for which one is on its way. -/
theorem State.askScenes_of_requested {t : TileId} {i : Nat} {r : Link × Nat} (hr : r ∈ s.fab.requests) (hdest : r.1.dest = .input t i)
    (id : Nat) (e : Element) : s.askScenes id t e i = [] := by
  have hasked : (s.fab.requests.any fun r => r.1.dest == .input t i) = true := List.any_eq_true.2 ⟨r, hr, by simp [hdest]⟩
  simp [State.askScenes, hasked]

/-- R59: once an element has asked for a token at an input, no other does. -/
theorem State.askScenes_request {id : Nat} {t : TileId} {i : Nat} {e : Element} (h : s.askScenes id t e i = []) (scs : List Nat) :
    (s.request id t i scs).askScenes id t e i = [] := by
  rcases hnew : s.newRequests id t i scs with _ | ⟨r, l⟩
  · rwa [State.request_eq, if_pos hnew]
  · have hr : r ∈ s.newRequests id t i scs := by simp [hnew]
    exact State.askScenes_of_requested (r := r) (by simp [hr]) (State.dest_of_mem_newRequests hr) id e

/-! ## The request of an element in its turn -/

theorem State.tryRequest_of_not_asking {id : Nat} {t : TileId} {e : Element} {i : Nat} (h : s.askScenes id t e i = []) :
    s.tryRequest id t e i = s := by
  simp [State.tryRequest, h]

/-- R59, R62, R71: the element's turn comes before those of the tokens that are left: it does what it does. -/
theorem State.inTurn_of_reached {id n : Nat} {t : TileId} {e : Element} (hearly : s.early id = false)
    (hreach : n + s.wantsBefore (s.act id).regionRoot t e ≤ s.powerLeft id) (f : State → State) : s.inTurn id t e n f = f s := by
  have hnot : ¬ (s.act (s.act id).regionRoot).tokens < n + s.wantsBefore (s.act id).regionRoot t e := by
    simpa [State.powerLeft] using hreach
  simp [State.inTurn, hearly, hnot]

/-- R62, R71: in its turn an element waits, is refused, or does what it does. -/
theorem State.inTurn_cases (s : State) (id : Nat) (t : TileId) (e : Element) (n : Nat) (f : State → State) :
    s.inTurn id t e n f = s ∨ s.inTurn id t e n f = s.refuse id t ∨ s.inTurn id t e n f = f s := by
  simp only [State.inTurn]
  split
  · exact .inl rfl
  · split
    · exact .inr (.inr rfl)
    · split
      · exact .inr (.inl rfl)
      · exact .inr (.inr rfl)

/-- R59, R62, R322: an element that asks, in its turn, with power and under the cap, makes its request. -/
theorem State.tryRequest_of_reached {id : Nat} {t : TileId} {e : Element} {i : Nat} (hasks : s.askScenes id t e i ≠ [])
    (hearly : s.early id = false) (hreach : 1 + s.wantsBefore (s.act id).regionRoot t e ≤ s.powerLeft id)
    (hcap : e = .node → s.underCap id = true) : s.tryRequest id t e i = s.request id t i (s.askScenes id t e i) := by
  have hpower : (s.act (s.act id).regionRoot).tokens ≠ 0 := by
    have hleft : s.powerLeft id ≠ 0 := by omega
    exact hleft
  unfold State.tryRequest
  split
  case h_1 hnone => exact absurd hnone hasks
  case h_2 =>
    rw [State.inTurn_of_reached hearly hreach, if_neg]
    by_cases he : e = .node
    · simp [he, hcap he, hpower]
    · simp [he, hpower]

/-- R62, R319: with no power token left an element makes no request; it is refused, if it asks at all. -/
theorem State.tryRequest_of_no_power {id : Nat} (hpower : s.powerLeft id = 0) (t : TileId) (e : Element) (i : Nat) :
    s.tryRequest id t e i = s ∨ s.tryRequest id t e i = s.refuse id t := by
  have htokens : (s.act (s.act id).regionRoot).tokens = 0 := hpower
  unfold State.tryRequest
  split
  · exact .inl rfl
  · rename_i scs _
    rcases s.inTurn_cases id t e 1 _ with h | h | h
    · exact .inl h
    · exact .inr h
    · exact .inr (h.trans (if_pos (by simp [htokens])))

/-- R59: the requests of the elements of a tile at one input. -/
theorem exec_zeroSlotRequest {t : TileId} {id : Nat} (hown : s.liveOwner t = some id) (i : Nat) : exec (.zeroSlotRequest t i) s =
    .next ((([.pipe, .node, .agen] : List Element)).foldl (fun w e => w.tryRequest id t e i) s) := by
  show execZeroSlotRequest t i s = _
  simp only [execZeroSlotRequest, hown]

/-- R59: the only element that asks is the only one that makes its request. -/
theorem exec_zeroSlotRequest_of_reached {t : TileId} {id : Nat} {e : Element} {i : Nat} (hown : s.liveOwner t = some id)
    (hasks : s.askScenes id t e i ≠ []) (hothers : ∀ e', e' ≠ e → s.askScenes id t e' i = []) (hearly : s.early id = false)
    (hreach : 1 + s.wantsBefore (s.act id).regionRoot t e ≤ s.powerLeft id) (hcap : e = .node → s.underCap id = true) :
    exec (.zeroSlotRequest t i) s = .next (s.request id t i (s.askScenes id t e i)) := by
  have hmakes := State.tryRequest_of_reached hasks hearly hreach hcap
  have hbefore (e' : Element) (he : e' ≠ e) : s.tryRequest id t e' i = s := State.tryRequest_of_not_asking (hothers e' he)
  have hafter (e' : Element) (he : e' ≠ e) : (s.request id t i (s.askScenes id t e i)).tryRequest id t e' i =
      s.request id t i (s.askScenes id t e i) :=
    State.tryRequest_of_not_asking (State.askScenes_request (hothers e' he) _)
  rw [exec_zeroSlotRequest hown]
  cases e <;> simp [hmakes, hbefore, hafter]

/-- R62: with no power token left no element of a tile makes a request. -/
theorem State.tryRequests_of_no_power {id : Nat} (hpower : s.powerLeft id = 0) (t : TileId) (i : Nat) (l : List Element) :
    ∃ u, l.foldl (fun w e => w.tryRequest id t e i) s = u ∧ FabricStep s u ∧ u.fab = s.fab := by
  induction l generalizing s with
  | nil => exact ⟨s, rfl, .refl s, rfl⟩
  | cons e l ih =>
    rw [List.foldl_cons]
    rcases State.tryRequest_of_no_power hpower t e i with h | h
    · rw [h]
      exact ih hpower
    · rw [h]
      obtain ⟨u, hu, hstep, hfab⟩ := ih (s := s.refuse id t) (by simp [hpower])
      exact ⟨u, hu, ((FabricStep.refl s).refuse id t).trans hstep, by simp [hfab]⟩

end

end Sys2Proof.Machine

namespace Sys2Proof.Claims
open Sys2Proof Machine

theorem zeroSlotRequests : ZeroSlotRequests := by
  intro s tl inp id e scs hown hscs hasks hothers hearly
  subst hscs
  refine ⟨fun hreach hcap => ?_, fun hpower => ?_⟩
  · refine ⟨_, exec_zeroSlotRequest_of_reached hown hasks hothers hearly hreach hcap, ?_⟩
    have hstep := FabricStep.request s id tl inp (s.askScenes id tl e inp)
    refine ⟨hstep.mem, hstep.regs, fun r hr => by simp [hr], fun p hp b hb hslots hscene => ?_⟩
    rw [State.request_requests]
    exact List.mem_append_right _ (State.mem_newRequests hp hb hslots hscene)
  · obtain ⟨t, hmade, hstep, hfab⟩ := State.tryRequests_of_no_power hpower tl inp [.pipe, .node, .agen]
    exact ⟨t, (exec_zeroSlotRequest hown inp).trans (congrArg _ hmade), hstep.mem, hstep.regs, hfab⟩

end Sys2Proof.Claims

/-! SUPPORT. Markers (R64, R197): what an element that passes a marker places, consumes and does. -/
namespace Sys2Proof.Machine
open Claims

section
variable {s u : State}

/-! ## What the passage leaves of a tile -/

@[simp] theorem Tile.busyFor_outq (x : Tile) (n : Nat) (e : Element) : (x.busyFor n e).outq = x.outq := by cases e <;> rfl
@[simp] theorem Tile.busyFor_st (x : Tile) (n : Nat) (e : Element) : (x.busyFor n e).st = x.st := by cases e <;> rfl
@[simp] theorem Tile.busyFor_shadowNew (x : Tile) (n : Nat) (e : Element) : (x.busyFor n e).shadowNew = x.shadowNew := by
  cases e <;> rfl

@[simp] theorem snapshot_outq (x : Tile) (pos : List CmdPos) (e : Element) : (snapshot x pos e).outq = x.outq := by cases e <;> rfl

@[simp] theorem snapshotSink_outq (x : Tile) (pos : List CmdPos) : (snapshotSink x pos).outq = x.outq := by
  unfold snapshotSink
  split
  · exact snapshot_outq ..
  · rfl

@[simp] theorem localAction_outq (x : Tile) (pos : List CmdPos) (e : Element) (kind scene : Nat) :
    (localAction x pos e kind scene).outq = x.outq := by
  unfold localAction
  split
  · split
    · exact snapshotSink_outq ..
    · exact snapshot_outq ..
  · cases e <;> rfl
  · rfl

/-- R64, R373: a mark copies the state of a pipeline. -/
theorem localAction_mark_pipe (x : Tile) (pos : List CmdPos) (scene : Nat) :
    (localAction x pos .pipe 2 scene).shadowNew.map (·.scenes) = some x.st.scenes := rfl

/-- R64: a scene-end curtain resets the counters that a pipeline keeps for its scenes. -/
theorem localAction_curtain_pipe (x : Tile) (pos : List CmdPos) (scene n : Nat) (hn : n < 4) :
    ((((localAction x pos .pipe 3 scene).st.scenes)[n]?).getD SceneSt.zero).f = 0 ∧
    ((((localAction x pos .pipe 3 scene).st.scenes)[n]?).getD SceneSt.zero).turn = 0 := by
  simp [localAction, hn, SceneSt.afterCurtain]

/-! ## The passage of a marker (R64) -/

theorem FiringStep.unreserve (h : FiringStep s u) (id : Nat) (t : TileId) (is : List Nat) : FiringStep s (u.unreserve id t is) := by
  unfold State.unreserve
  split
  · exact h
  · exact h.updAct _ fun _ => rfl

/-- R64, R241: the outputs on which an element places a marker that it passes: those with a circuit in its region. -/
def State.markerOuts (s : State) (id : Nat) (t : TileId) (e : Element) (scene : Nat) (c : TileCfg) : List Nat :=
  (if e = .agen then [] else c.outputsOf e).filter fun o => !(s.ownBranches id t o scene).isEmpty

/-- R64: the credits that a marker takes on outputs. -/
def State.payMarker (s : State) (id : Nat) (t : TileId) (scene : Nat) (outs : List Nat) : State :=
  outs.foldl (fun s o => (s.ownBranches id t o scene).foldl (fun s b => s.takeCredit id b.1) s) s

/-- R64: the heads that an element passes consumed. -/
def State.eatPassed (s : State) (id : Nat) (t : TileId) (e : Element) (c : TileCfg) : State :=
  (s.unreserve id t (s.passInputs t c e)).consumeAll id t (s.passInputs t c e)

/-- R64, R379: the local action of a marker, its passage told to those who wait for it, and the progress of the region. -/
def State.endPassage (s : State) (id : Nat) (t : TileId) (e : Element) (scene : Nat) (tok : Token) : State :=
  let acted := s.updTile t fun x => (localAction x (s.positions t) e tok.kind.toNat tok.sc.toNat).busyFor s.cycle e
  let told := if tok.mark && tok.sc.toNat = scene then acted.updAct id fun a => a.passed t e tok.kind.toNat scene tok.arg else acted
  (told.settle id).moved id

/-- R64: the state after the passage of a marker. -/
def State.afterPassage (s : State) (id : Nat) (t : TileId) (e : Element) (scene : Nat) (c : TileCfg) (tok : Token) : State :=
  let outs := s.markerOuts id t e scene c
  (((s.payMarker id t scene outs).queueEach t e scene tok true outs).eatPassed id t e c).endPassage id t e scene tok

/-- R64, R59: a marker passes an element once its destinations have room, and no pledge keeps the inputs. -/
theorem State.pass_eq_of_mark {tok : Token} (hmark : tok.mark = true) (s : State) (id : Nat) (t : TileId) (e : Element) (scene : Nat)
    (c : TileCfg) : s.pass id t e scene c tok =
      if !((s.markerOuts id t e scene c).all fun o => (s.ownBranches id t o scene).all fun b => s.canPlace id b.1) ||
        s.pledged id t scene (s.passInputs t c e) then none else some (s.afterPassage id t e scene c tok) := by
  obtain ⟨_, _, mark, _, _, _, _⟩ := tok
  obtain rfl : mark = true := hmark
  cases e <;> rfl

theorem State.mem_markerOuts {id : Nat} {t : TileId} {e : Element} {scene : Nat} {c : TileCfg} {o : Nat} :
    o ∈ s.markerOuts id t e scene c ↔ e ≠ .agen ∧ o ∈ c.outputsOf e ∧ s.ownBranches id t o scene ≠ [] := by
  by_cases he : e = .agen <;> simp [State.markerOuts, he]

theorem State.pass_of_room {id : Nat} {t : TileId} {e : Element} {scene : Nat} {c : TileCfg} {tok : Token} (hmark : tok.mark = true)
    (hroom : ∀ o ∈ c.outputsOf e, ∀ b ∈ s.ownBranches id t o scene, s.canPlace id b.1 = true)
    (hpledged : s.pledged id t scene (s.passInputs t c e) = false) :
    s.pass id t e scene c tok = some (s.afterPassage id t e scene c tok) := by
  have hok : ((s.markerOuts id t e scene c).all fun o => (s.ownBranches id t o scene).all fun b => s.canPlace id b.1) = true := by
    simp only [List.all_eq_true, State.mem_markerOuts]
    exact fun o ho b hb => hroom o ho.2.1 b hb
  rw [State.pass_eq_of_mark hmark, hok, hpledged]
  rfl

theorem FiringStep.payMarker (h : FiringStep s u) (id : Nat) (t : TileId) (scene : Nat) (outs : List Nat) :
    FiringStep s (u.payMarker id t scene outs) := by
  refine h.foldl (fun w o => ?_) outs
  exact (FiringStep.refl w).foldl (fun x (b : Link × Nat) => (FiringStep.refl x).takeCredit id b.1) _

theorem FiringStep.eatPassed (h : FiringStep s u) (id : Nat) (t : TileId) (e : Element) (c : TileCfg) :
    FiringStep s (u.eatPassed id t e c) :=
  (h.unreserve ..).consumeAll ..

theorem Act.foldl_updSlot_regs {α : Type} (k : α → Nat) (f : SceneSlot → SceneSlot) (l : List α) (a : Act) :
    (l.foldl (fun a w => a.updSlot (k w) f) a).regs = a.regs := by
  induction l generalizing a with
  | nil => rfl
  | cons w l ih => exact (ih _).trans (a.updSlot_regs ..)

theorem Act.passed_regs (a : Act) (t : TileId) (e : Element) (kind scene : Nat) (num : Byte) :
    (a.passed t e kind scene num).regs = a.regs :=
  Act.foldl_updSlot_regs EndWait.scene _ _ _

theorem FabricStep.endPassage (h : FabricStep s u) (id : Nat) (t : TileId) (e : Element) (scene : Nat) (tok : Token) :
    FabricStep s (u.endPassage id t e scene tok) := by
  refine .moved (.settle ?_ id) id
  split
  · exact (h.updTile ..).updAct id fun a => a.passed_regs ..
  · exact h.updTile ..

@[simp] theorem State.tile_endPassage (s : State) (id : Nat) (t : TileId) (e : Element) (scene : Nat) (tok : Token) :
    (s.endPassage id t e scene tok).tile t =
      (localAction (s.tile t) (s.positions t) e tok.kind.toNat tok.sc.toNat).busyFor s.cycle e := by
  simp only [State.endPassage, State.tile_moved, State.tile_settle]
  split <;> simp

/-- R64: before its local action, the passage of a marker has queued it on every destination, and consumed the heads. -/
theorem State.afterPassage_eq (s : State) (id : Nat) (t : TileId) (e : Element) (scene : Nat) (c : TileCfg) (tok : Token) :
    ∃ u new, OutStep t new s u ∧
      (∀ o ∈ s.markerOuts id t e scene c, ∃ p ∈ new, p.out = o ∧ p.scene = scene ∧ p.tok = tok ∧ p.paid = true) ∧
      s.afterPassage id t e scene c tok = u.endPassage id t e scene tok := by
  have hpay := (FiringStep.refl s).payMarker id t scene (s.markerOuts id t e scene c)
  obtain ⟨new, hqueue, hnew⟩ := OutStep.queueEach (s.payMarker id t scene (s.markerOuts id t e scene c)) t e scene tok true
    (s.markerOuts id t e scene c)
  exact ⟨_, new, ((hpay.toOutStep t).trans hqueue).transFiring ((FiringStep.refl _).eatPassed id t e c), hnew, rfl⟩

/-! ## The end of a scene at a node (R197) -/

/-- R197: a one-shot word that a scene-end curtain sets off places the curtain behind the outgoing tokens. -/
theorem State.setOff_kept (s : State) (id : Nat) (t : TileId) (old : TileCfg) (tok : Token) :
    FabricStep s (s.setOff id t old tok) ∧ ∀ p ∈ (s.tile t).outq, p ∈ ((s.setOff id t old tok).tile t).outq := by
  unfold State.setOff
  simp only
  split
  · exact ⟨.refl s, fun _ hp => hp⟩
  · split
    · exact ⟨.refl s, fun _ hp => hp⟩
    · rename_i c _ _
      have hset := (FabricStep.refl s).updTile t fun x => x.updNode fun n => { n with oneShot := some (s.act id).region.cur }
      obtain ⟨new, hqueued, -⟩ := OutStep.queueEach
        (s.updTile t fun x => x.updNode fun n => { n with oneShot := some (s.act id).region.cur }) t .node
        (s.act id).region.cur tok false ((c.outputsOf .node).filter fun o => !((old.outputsOf .node).contains o))
      exact ⟨hset.trans hqueued.toFabricStep, fun p hp => hqueued.kept p (by simpa using hp)⟩

theorem State.endScene_kept (s : State) (id : Nat) (t : TileId) (old : TileCfg) (tok : Token) :
    FabricStep s (s.endScene id t old tok) ∧ ∀ p ∈ (s.tile t).outq, p ∈ ((s.endScene id t old tok).tile t).outq := by
  obtain ⟨hstep, hkept⟩ := (s.updTile t fun x => x.updNode fun n => { n with latch := Latch.zero }).setOff_kept id t old tok
  exact ⟨((FabricStep.refl s).updTile t _).trans hstep, fun p hp => hkept p (by simpa using hp)⟩

/-! ## The attempt to pass -/

theorem heads_of_equal {t : TileId} {is : List Nat} {k : Token} (hne : is ≠ []) (h : ∀ i ∈ is, s.gateHead t i = some k) :
    ∃ rest, heads s t is = some k :: rest := by
  obtain ⟨i, is, rfl⟩ := List.exists_cons_of_ne_nil hne
  exact ⟨heads s t is, by simp [heads, h i]⟩

/-- R64, R197: an element whose inputs show a marker, and that has its firing slot, passes it; a scene-end curtain ends a node's scene. -/
theorem State.tryPass_of_passed {id sc : Nat} {t : TileId} {e : Element} {c : TileCfg} {k : Token} (hown : s.liveOwner t = some id)
    (hscene : passScene s t e = some sc) (hcfg : s.cfg t sc = some c) (hmark : k.mark = true) (hne : s.passInputs t c e ≠ [])
    (hheads : ∀ i ∈ s.passInputs t c e, s.gateHead t i = some k) (hfree : slotFree s t e = true) (hticks : s.ticks t = true)
    (hshot : e = .node → k.kind = 3 → (s.tile t).st.node.oneShot = none) (hpass : s.pass id t e sc c k = some u) :
    s.tryPass t e = if e = .node ∧ k.kind = 3 then u.endScene id t c k else u := by
  obtain ⟨rest, hhead⟩ := heads_of_equal hne hheads
  simp only [State.tryPass, hown, hscene, hcfg, hhead, hpass]
  rw [if_neg]
  · simp [hmark]
  · simp only [hfree, hticks, hmark, Bool.not_true, Bool.false_or, Bool.and_true, Bool.and_eq_true, decide_eq_true_eq]
    rintro ⟨⟨he, hkind⟩, hsome⟩
    simp [hshot he hkind] at hsome

theorem exec_markerPassage {id : Nat} {t : TileId} (hown : s.liveOwner t = some id) (hbad : s.badInput t = none) (e : Element) :
    exec (.markerPassage t e) s = .next (s.tryPass t e) := by
  show execMarkerPassage t e s = _
  simp only [execMarkerPassage, hown, State.checked, hbad]

/-- R64, R197: what a passage has placed still stands once it has ended the scene of a node, if it does. -/
theorem State.passed_kept (s : State) (id : Nat) (t : TileId) (e : Element) (c : TileCfg) (k : Token) :
    let u := if e = .node ∧ k.kind = 3 then s.endScene id t c k else s
    FabricStep s u ∧ ∀ p ∈ (s.tile t).outq, p ∈ (u.tile t).outq := by
  simp only
  split
  · exact s.endScene_kept id t c k
  · exact ⟨.refl s, fun _ hp => hp⟩

end

end Sys2Proof.Machine

namespace Sys2Proof.Claims
open Sys2Proof Machine

theorem markersPass : MarkersPass := by
  intro s tl e id sc c k hown hscene hcfg hmark hne hheads hfree hticks hroom hbad hpledged hshot
  have hpass := State.pass_of_room hmark hroom hpledged
  obtain ⟨u, new, hstep, hnew, hafter⟩ := s.afterPassage_eq id tl e sc c k
  rw [hafter] at hpass
  have hexec := exec_markerPassage hown hbad e
  rw [State.tryPass_of_passed hown hscene hcfg hmark hne hheads hfree hticks hshot hpass] at hexec
  obtain ⟨hend, hkept⟩ := (u.endPassage id tl e sc k).passed_kept id tl e c k
  have hpassed := (hstep.toFabricStep.endPassage id tl e sc k).trans hend
  refine ⟨_, hexec, hpassed.mem, hpassed.regs, fun p hp => hkept p ?_, fun he o ho hbranch => ?_, fun he hkind => ?_,
    fun he hkind n hn => ?_⟩
  · simpa using hstep.kept p hp
  · obtain ⟨p, hp, hplaced⟩ := hnew o (State.mem_markerOuts.2 ⟨he, ho, hbranch⟩)
    exact ⟨p, hkept p (by simpa using hstep.placed p hp), hplaced⟩
  · subst he
    simp [hkind, localAction_mark_pipe, hstep.st]
  · subst he
    simp [State.sceneSt, hkind, localAction_curtain_pipe _ _ _ n hn]

end Sys2Proof.Claims

/-! SUPPORT. Scale tokens (R65, R188, R194): what forwarding one places, and what latching one keeps. -/
namespace Sys2Proof.Machine
open Claims

section
variable {s : State} {id sc : Nat} {t : TileId} {i : Nat} {b : BufTok} {c : TileCfg}

/-- R65: the scene of a scale token is the one that its header names. -/
theorem State.scene_of_scaleHead (h : s.scaleHead t i = some (b, sc, c)) : sc = b.tok.sc.toNat := by
  unfold State.scaleHead at h
  split at h
  · simp at h
  · simp only at h
    split at h
    · simp at h
    · obtain ⟨d, -, hd⟩ := Option.map_eq_some_iff.1 h
      obtain ⟨rfl, rfl, -⟩ := by simpa only [Prod.mk.injEq] using hd
      rfl

/-- R65: a scale token with room on every destination joins the outgoing tokens once for each. -/
theorem State.forwardScale_of_ready (hready : ∀ o ∈ c.outputsOf .pipe, s.ready id t o b.tok.sc.toNat 1 = true) :
    ∃ u new, OutStep t new s u ∧
      (∀ o ∈ c.outputsOf .pipe, ∃ p ∈ new, p.out = o ∧ p.scene = b.tok.sc.toNat ∧ p.tok = b.tok) ∧
      s.forwardScale id t i c b = (u.settle id).moved id := by
  have hall : ((c.outputsOf .pipe).all fun o => s.ready id t o b.tok.sc.toNat 1) = true := List.all_eq_true.2 hready
  obtain ⟨new, hqueue, hnew⟩ := OutStep.foldl_each (tl := t)
    (f := fun w o => (w.takeAll id t o b.tok.sc.toNat 1).queueOut t
      { due := passDue w t .pipe o, out := o, scene := b.tok.sc.toNat, tok := b.tok, paid := true })
    (P := fun o p => p.out = o ∧ p.scene = b.tok.sc.toNat ∧ p.tok = b.tok)
    (fun w o => ⟨_, ⟨rfl, rfl, rfl⟩, (((FiringStep.refl w).takeAll id t o _ 1).toOutStep t).trans (.queueOut _ t _)⟩) s
    (c.outputsOf .pipe)
  refine ⟨_, new, hqueue.transFiring (((FiringStep.refl _).unreserve id t [i]).deliver id t i |>.consume t i), hnew, ?_⟩
  simp only [State.forwardScale, hall, Bool.not_true, Bool.false_eq_true, if_false]
  rfl

/-- R65: a scale token that is latched, consumed. -/
def State.eatScale (s : State) (id : Nat) (t : TileId) (i : Nat) : State :=
  (((s.unreserve id t [i]).consumeAll id t [i]).settle id).moved id

theorem FabricStep.eatScale (s : State) (id : Nat) (t : TileId) (i : Nat) : FabricStep s (s.eatScale id t i) :=
  ((((FiringStep.refl s).unreserve id t [i]).consumeAll id t [i]).toFabricStep.settle id).moved id

@[simp] theorem State.eatScale_st (s : State) (id : Nat) (t : TileId) (i : Nat) (x : TileId) :
    ((s.eatScale id t i).tile x).st = (s.tile x).st := by
  have heat := ((FiringStep.refl s).unreserve id t [i]).consumeAll id t [i]
  simp [State.eatScale, heat.st]

@[simp] theorem State.eatScale_outq (s : State) (id : Nat) (t : TileId) (i : Nat) (x : TileId) :
    ((s.eatScale id t i).tile x).outq = (s.tile x).outq := by
  have heat := ((FiringStep.refl s).unreserve id t [i]).consumeAll id t [i]
  simp [State.eatScale, heat.outq]

section
variable (hown : s.liveOwner t = some id) (hhead : s.scaleHead t i = some (b, sc, c))
include hown hhead

theorem exec_scaleTokenForward_pipe (hpipe : c.has .pipe = true) (hin : i ∈ c.inputsOf .pipe) (haware : scaleInput c.stages i = false) :
    exec (.scaleTokenForward t i) s = .next (s.forwardScale id t i c b) := by
  show execScaleTokenForward t i s = _
  simp [execScaleTokenForward, hown, hhead, hpipe, hin, haware]

theorem exec_scaleTokenLatch_pipe (hpipe : c.has .pipe = true) (hin : i ∈ c.inputsOf .pipe) (haware : scaleInput c.stages i = true) :
    exec (.scaleTokenLatch t i) s = .next ((s.eatScale id t i).updTile t fun x =>
      { x with fired := true,
               st := { x.st with scenes := x.st.scenes.set sc (((x.st.scenes[sc]?).getD SceneSt.zero).latch i b.tok.arg) } }) := by
  show execScaleTokenLatch t i s = _
  simp only [execScaleTokenLatch, hown, hhead, hpipe, haware, List.contains_iff_mem.2 hin, Bool.and_self, if_true]
  rfl

theorem exec_scaleTokenLatch_node (hpipe : c.has .pipe = false) (hnode : c.has .node = true) (hport : nodeAP c.nodeWord = i) :
    exec (.scaleTokenLatch t i) s =
      .next ((s.eatScale id t i).updTile t fun x => x.updNode fun n => { n with latch := n.latch.take b.tok.arg }) := by
  show execScaleTokenLatch t i s = _
  simp only [execScaleTokenLatch, hown, hhead, hpipe, hnode, hport, Bool.false_and, Bool.false_eq_true, if_false, decide_true,
    Bool.and_self, if_true]
  rfl

end

end

end Sys2Proof.Machine

/-! SUPPORT. Region entries (R241) and tokens that are dropped (R367, R386, R430). -/
namespace Sys2Proof.Machine
open Claims

/-! ## Region entries (R241) -/

/-- R241: behind the tokens that have entered, the first that is valid takes the scene. -/
theorem enterFirst_of_valid (n sc : Nat) (l : List BufTok) (b : BufTok) (l' : List BufTok) (hl : ∀ x ∈ l, x.entered = true)
    (hb : b.entered = false) (hvalid : b.valid ≤ n) :
    enterFirst n sc (l ++ b :: l') =
      l ++ { b with entered := true, tok := { b.tok with sc := BitVec.ofNat 2 sc } } :: l' := by
  induction l with
  | nil => simp [enterFirst, BufTok.enter, hb, hvalid]
  | cons x l ih =>
    have hrest := ih fun y hy => hl y (List.mem_cons_of_mem _ hy)
    simp [enterFirst, hl x List.mem_cons_self, hrest]

theorem exec_regionEntryToken {s : State} {t : TileId} {id : Nat} (hown : s.ownerOf t = some id) (hcurtain : (s.act id).curtain = none)
    (hquiet : (s.act id).region.quiet = false) (i : Nat) : exec (.regionEntryToken t i) s = .next (s.updTile t fun x =>
      { x with inbuf := x.inbuf.set i (enterFirst s.cycle (s.act id).region.cur ((x.inbuf[i]?).getD [])) }) := by
  show execRegionEntryToken t i s = _
  simp [execRegionEntryToken, hown, hcurtain, hquiet]

/-! ## Tokens that are dropped (R367, R386, R430) -/

/-- R367: a branch that a hedge in front of a tile of a die ends. -/
def Link.endsAtHedge (die : Nat) (l : Link) : Bool :=
  match l.dest with
  | .hedge u _ _ => u.die == die
  | _ => false

/-- R430: a branch that ends at a tile of a die that the repair map lists. -/
def Link.endsAtListed (die : Nat) (l : Link) : Bool :=
  match l.dest with
  | .listed u => u.die == die
  | _ => false

/-- R386: a branch from a die that reaches no consumer. -/
def Link.endsNowhere (die : Nat) (l : Link) : Bool := l.dest == .off && l.src.die == die

/-- R367: a drop at a hedge counted in its interval. -/
def State.countHedge (s : State) (d : DropTok) : State :=
  { s with fab := { s.fab with hedgeCount := assocSet d.hedgeAt (tally d.hedgeAt s.fab.hedgeCount + 1) s.fab.hedgeCount } }

section
variable {s : State} {die : Nat} {d : DropTok}

theorem exec_hedge (h : s.firstDrop (Link.endsAtHedge die) = some d) : exec (.hedge die) s = .next ((s.dropTok d).countHedge d) := by
  show Host.Outcome.next (match s.firstDrop (Link.endsAtHedge die) with
    | none => s
    | some d => (s.dropTok d).countHedge d) = _
  rw [h]

theorem exec_fusedTileDrop (h : s.firstDrop (Link.endsAtListed die) = some d) :
    exec (.fusedTileDrop die) s = .next ((s.dropTok d).countPart d.who.part 0x71 1) := by
  show Host.Outcome.next (match s.firstDrop (Link.endsAtListed die) with
    | none => s
    | some d => (s.dropTok d).countPart d.who.part 0x71 1) = _
  rw [h]

theorem exec_misroutedTokenDrop (h : s.firstDrop (Link.endsNowhere die) = some d) :
    exec (.misroutedTokenDrop die) s = .next (s.dropTok d) := by
  show Host.Outcome.next (match s.firstDrop (Link.endsNowhere die) with
    | none => s
    | some d => s.dropTok d) = _
  rw [h]

end

end Sys2Proof.Machine

namespace Sys2Proof.Claims
open Sys2Proof Machine

theorem scaleTokens : ScaleTokens := by
  intro s tl inp id sc b c hown hhead
  obtain rfl := State.scene_of_scaleHead hhead
  refine ⟨fun hpipe hin haware hready => ?_, fun hpipe hin haware => ?_, fun hpipe hnode hport => ?_⟩
  · obtain ⟨u, new, hstep, hnew, hforward⟩ := State.forwardScale_of_ready (i := inp) hready
    have hexec := exec_scaleTokenForward_pipe hown hhead hpipe hin haware
    rw [hforward] at hexec
    have hend := (hstep.toFabricStep.settle id).moved id
    refine ⟨_, hexec, hend.mem, hend.regs, fun p hp => by simpa using hstep.kept p hp, fun o ho => ?_⟩
    obtain ⟨p, hp, hplaced⟩ := hnew o ho
    exact ⟨p, by simpa using hstep.placed p hp, hplaced⟩
  · have hstep := FabricStep.eatScale s id tl inp
    exact ⟨_, exec_scaleTokenLatch_pipe hown hhead hpipe hin haware, (hstep.updTile tl _).mem, (hstep.updTile tl _).regs,
      by simp, by simp [State.sceneSt]⟩
  · have hstep := FabricStep.eatScale s id tl inp
    exact ⟨_, exec_scaleTokenLatch_node hown hhead hpipe hnode hport, (hstep.updTile tl _).mem, (hstep.updTile tl _).regs,
      by simp, by simp⟩

theorem tokensEnter : TokensEnter := by
  intro s tl inp id l b l' hown hcurtain hquiet hbuf hentered hb hvalid
  obtain ⟨hlen, hget⟩ := List.getElem?_eq_some_iff.1 hbuf
  refine ⟨_, exec_regionEntryToken hown hcurtain hquiet inp, rfl, rfl, ?_, fun j hj => ?_⟩
  · simp [hlen, hget, enterFirst_of_valid _ _ l b l' hentered hb hvalid]
  · simp [Ne.symm hj]

theorem tokensDropped : TokensDropped := by
  intro s die d
  refine ⟨fun h => ?_, fun h => ?_, fun h => ?_⟩
  · exact ⟨_, exec_hedge h, rfl, rfl, rfl, rfl, by simp [State.countHedge, State.dropTok, State.returnCredit]⟩
  · exact ⟨_, exec_fusedTileDrop h, rfl, rfl, rfl, rfl⟩
  · exact ⟨_, exec_misroutedTokenDrop h, rfl, rfl, rfl, rfl⟩

/-- Settles O42: zero-slot requests by the turn of the only element that asks, markers and scale tokens by the tokens that they queue on
each destination, entries and drops by what their events leave. Where the rules are silent, the readings are the model's own: when an
element asks for a token and what it costs, when an entry's token enters, which drop comes first, and which markers stall an element
[logs 73, 79, 80 and 119 DEDUCED]. -/
theorem tokensMove : Obligations.TokensMove := ⟨zeroSlotRequests, markersPass, scaleTokens, tokensEnter, tokensDropped⟩

end Sys2Proof.Claims

/-! SUPPORT. Elements located (R124, R207, R281, R282): what a search that finds its bytes changes. -/
namespace Sys2Proof.Machine

/-- R281, R282: what accesses that all go through may change: the entries of slices, and the free values drawn for their victims. -/
def Reaches (s t : State) : Prop := ∃ n l, t = { s with fresh := n, eng := { s.eng with slices := l } }

theorem Reaches.refl (s : State) : Reaches s s := ⟨_, _, rfl⟩

theorem Reaches.trans {s t u : State} (h : Reaches s t) (h' : Reaches t u) : Reaches s u := by
  obtain ⟨_, _, rfl⟩ := h
  obtain ⟨_, _, rfl⟩ := h'
  exact ⟨_, _, rfl⟩

theorem Reaches.fillSlice (s : State) (e : SliceEntry) : Reaches s (s.fillSlice e) := by
  simp only [State.fillSlice]
  split
  · exact ⟨_, _, rfl⟩
  · split
    · exact ⟨_, _, rfl⟩
    · split
      · exact ⟨_, _, rfl⟩
      · exact ⟨_, _, rfl⟩

theorem Reaches.translate (s : State) (die ctx : Nat) (va : Dbl) (k : Access) : Reaches s (translate s die ctx va k).2 := by
  simp only [Machine.translate]
  split
  · exact .refl s
  · split
    · exact .refl s
    · split
      · exact .refl s
      · exact .refl s
      · exact .refl s
      · exact .fillSlice ..

section
variable {s t : State} {g : Agent} {space write : Bool}

theorem Reaches.of_accessAs {who : Waiter} {die tile ctx act pa : Nat} {va : Dbl} {k : Access}
    (h : accessAs s who die tile ctx act va k = (.ok pa, t)) : Reaches s t := by
  have hwalk := Reaches.translate s die ctx va k
  unfold accessAs at h
  split at h
  · cases h
  · split at h
    · rename_i htr
      rw [htr] at hwalk
      split at h
      · cases h
        exact hwalk
      · cases h
    · cases h
    · split at h
      · cases h
      · split at h
        · cases h
        · cases h

theorem Reaches.of_locateBytes {k : Access} {va0 : Dbl} {x : Spot} (n : Nat) : ∀ {s : State} {va : Dbl} {ps : List Place},
    locateBytes g k va0 n va ps s = (.at x, t) → Reaches s t := by
  induction n with
  | zero =>
    intro s va ps h
    cases h
    exact .refl _
  | succ n ih =>
    intro s va ps h
    unfold locateBytes at h
    split at h
    · rename_i hgot
      exact (Reaches.of_accessAs hgot).trans (ih h)
    · cases h
    · cases h

theorem Reaches.of_locateFree {va : Dbl} {n : Nat} {x : Spot} (h : locateFree s g space write va n = (.at x, t)) : Reaches s t := by
  unfold locateFree at h
  split at h
  · cases h
  · split at h
    · obtain rfl := (Prod.mk.inj h).2
      exact .refl _
    · exact .of_locateBytes n h

/-- R287: what a drain withholds is never a spot that has been found. -/
theorem Agent.eq_of_held_at {y : Found} {x : Spot} (h : g.held s y = .at x) : y = .at x := by
  unfold Agent.held at h
  split at h
  · split at h
    · cases h
    · cases h
    · exact h
  · exact h

theorem Reaches.of_locate {va : Dbl} {n : Nat} {x : Spot} (h : locate s g space write va n = (.at x, t)) : Reaches s t := by
  unfold locate at h
  split at h
  · cases h
  · obtain ⟨hheld, rfl⟩ := Prod.mk.inj h
    exact .of_locateFree (Prod.ext (Agent.eq_of_held_at hheld) rfl)

theorem Reaches.of_locateAll {n : Nat} {l : List Spot} (vas : List Dbl) : ∀ {s : State} {ps : List Spot},
    locateAll g space write n vas ps s = .all l t → Reaches s t := by
  induction vas with
  | nil =>
    intro s ps h
    cases h
    exact .refl _
  | cons va vas ih =>
    intro s ps h
    unfold locateAll Found.take at h
    split at h
    · rename_i hat
      exact (Reaches.of_locate hat).trans (ih h)
    · cases h
    · cases h
    · cases h

/-- R207: elements that are all located change no more than their accesses do. -/
theorem Reaches.of_locateElems {ten : TensorEntry} {js : List Nat} {l : List Spot} (h : locateElems g ten write js s = .all l t) :
    Reaches s t := by
  unfold locateElems at h
  simp only [] at h
  split at h
  · split at h
    · cases h
    · cases h
  · exact .of_locateAll _ h

end

theorem Reaches.queue {s t : State} (h : Reaches s t) (q : QueueId) : t.queue q = s.queue q := by
  obtain ⟨_, _, rfl⟩ := h
  rfl

theorem Reaches.tile {s t : State} (h : Reaches s t) (m : TileId) : t.tile m = s.tile m := by
  obtain ⟨_, _, rfl⟩ := h
  rfl

/-- What bytes of memory and of banks hold does not depend on what an access changes. -/
theorem Reaches.readPlaces {s t : State} (h : Reaches s t) (ps : List Place) : t.readPlaces ps = s.readPlaces ps := by
  obtain ⟨_, _, rfl⟩ := h
  induction ps with
  | nil => rfl
  | cons p ps ih =>
    unfold State.readPlaces
    rw [ih]
    cases p with
    | mem pa => rfl
    | bank key off => rfl

end Sys2Proof.Machine

/-! SUPPORT. Streams (R201, R204, R212): the command that a generator performs, and what keeps it in place. -/
namespace Sys2Proof.Machine

/-- The command that a generator performs is the head of its queue, on the generator's tile, with its tensor entry. -/
theorem State.stream_eq_some {s : State} {q : QueueId} {ops : List Nat} {x : Stream} :
    s.stream q ops = some x ↔ (s.queue q).state ≠ 2 ∧ (s.queue q).active = some x.a ∧ s.agenAct q = some (x.id, x.t) ∧
      ∃ e rest, (s.queue q).entries = e :: rest ∧ ops.contains (cmdOpc e.cmd) = true ∧
        s.tensor e.ctx (cmdTid e.cmd) = some x.ten ∧ x.g = agentOf q e x.id x.t := by
  constructor
  · intro h
    unfold State.stream at h
    simp only [] at h
    split at h
    · cases h
    · rename_i hstate
      split at h
      · rename_i e rest a id t hentries hactive hact
        split at h
        · cases h
        · rename_i hops
          split at h
          · rename_i ten hten
            cases h
            exact ⟨hstate, hactive, hact, e, rest, hentries, by simpa using hops, hten, rfl⟩
          · cases h
      · cases h
  · rintro ⟨hstate, hactive, hact, e, rest, hentries, hops, hten, hg⟩
    simp only [State.stream, hstate, hactive, hact, hentries, hops, hten, ← hg, if_false, Bool.not_true, Bool.false_eq_true]

/-- R201, R212: the generator of a queue whose region performs its commands stands on a tile of an act. -/
theorem State.fillHome_of_agenAct {s : State} {q : QueueId} {y : Nat × TileId} (h : s.agenAct q = some y) : s.fillHome q = some y := by
  unfold State.agenAct at h
  unfold State.fillHome
  split at h
  · rename_i die port hserver
    simp only [] at h
    split at h
    · cases h
    · rename_i id hown
      obtain ⟨-, hy⟩ := Option.ite_none_right_eq_some.1 h
      simp [hown, hy]
  · cases h

/-- A queue apart from its active command. -/
def Queue.atRest (x : Queue) : Queue := { x with active := none }

/-- What the steps of a command of queue `q` on operand slots leave: memory, the acts, the configuration of every tile, the parents and
the tensor entries of the contexts, and of the queue everything but its active command. -/
structure SlotStep (q : QueueId) (s u : State) : Prop where
  mem : u.mem = s.mem
  acts : u.acts = s.acts
  cfg : ∀ t, (u.tile t).cfg = (s.tile t).cfg
  parent : ∀ c, (u.ctx c).parent = (s.ctx c).parent
  tids : ∀ c, (u.ctx c).tids = (s.ctx c).tids
  queue : (u.queue q).atRest = (s.queue q).atRest

section
variable {q : QueueId} {s u v : State}

theorem SlotStep.refl (q : QueueId) (s : State) : SlotStep q s s := ⟨rfl, rfl, fun _ => rfl, fun _ => rfl, fun _ => rfl, rfl⟩

theorem SlotStep.trans (h : SlotStep q s u) (h' : SlotStep q u v) : SlotStep q s v where
  mem := h'.mem.trans h.mem
  acts := h'.acts.trans h.acts
  cfg t := (h'.cfg t).trans (h.cfg t)
  parent c := (h'.parent c).trans (h.parent c)
  tids c := (h'.tids c).trans (h.tids c)
  queue := h'.queue.trans h.queue

theorem SlotStep.of_reaches (q : QueueId) (h : Reaches s u) : SlotStep q s u := by
  obtain ⟨_, _, rfl⟩ := h
  exact ⟨rfl, rfl, fun _ => rfl, fun _ => rfl, fun _ => rfl, rfl⟩

theorem SlotStep.updCtx (h : SlotStep q s u) (c : Nat) {f : Ctx → Ctx} (hparent : ∀ x, (f x).parent = x.parent)
    (htids : ∀ x, (f x).tids = x.tids) : SlotStep q s (u.updCtx c f) :=
  h.trans { SlotStep.refl q u with
    parent := fun j => by rw [State.ctx_updCtx]; split <;> simp [hparent]
    tids := fun j => by rw [State.ctx_updCtx]; split <;> simp [htids] }

theorem SlotStep.count (h : SlotStep q s u) (c n k : Nat) : SlotStep q s (u.count c n k) := by
  unfold State.count
  exact h.updCtx c (fun _ => rfl) fun _ => rfl

theorem SlotStep.recordAccess (h : SlotStep q s u) (g : Agent) (write space : Bool) (va : Dbl) (n : Nat) :
    SlotStep q s (u.recordAccess g write space va n) := by
  unfold State.recordAccess State.updTask
  exact h.updCtx _ (fun _ => rfl) fun _ => rfl

theorem SlotStep.updTile (h : SlotStep q s u) (t : TileId) {f : Tile → Tile} (hcfg : ∀ x, (f x).cfg = x.cfg) :
    SlotStep q s (u.updTile t f) :=
  h.trans { SlotStep.refl q u with cfg := fun x => by rw [State.tile_updTile]; split <;> simp [hcfg] }

theorem SlotStep.updActive (h : SlotStep q s u) (f : Active → Active) : SlotStep q s (u.updActive q f) :=
  h.trans { SlotStep.refl q u with queue := by simp [State.updActive, Queue.atRest] }

theorem SlotStep.rootOf (h : SlotStep q s u) (c : Nat) : u.rootOf c = s.rootOf c := by
  have hfuel : ∀ n c, ancestorsFuel n u c = ancestorsFuel n s c := by
    intro n
    induction n with
    | zero => exact fun _ => rfl
    | succ n ih =>
      intro c
      unfold ancestorsFuel
      rw [h.parent]
      simp only [ih]
  simp only [State.rootOf, State.ancestors, hfuel]

theorem SlotStep.agenAct (h : SlotStep q s u) : u.agenAct q = s.agenAct q := by
  have hserver : u.serverOf q = s.serverOf q := by
    have := congrArg Queue.server h.queue
    unfold State.serverOf
    split
    · rfl
    · exact this
  have hown : u.ownerOf = s.ownerOf := by
    funext t
    simp only [State.ownerOf, h.acts]
  have hact : u.act = s.act := by
    funext id
    simp only [State.act, h.acts]
  have hcfg : u.cfg = s.cfg := by
    funext t n
    simp only [State.cfg, h.cfg]
  simp only [State.agenAct, hserver, hown, hact, hcfg, h.rootOf]

theorem SlotStep.tensor (h : SlotStep q s u) (c tid : Nat) : u.tensor c tid = s.tensor c tid := by
  simp only [State.tensor, h.tids]

/-- Such steps leave a generator its command, with what the command has come to. -/
theorem SlotStep.stream (h : SlotStep q s u) {ops : List Nat} {x : Stream} (hx : s.stream q ops = some x) {a : Active}
    (ha : (u.queue q).active = some a) : u.stream q ops = some { x with a := a } := by
  obtain ⟨hstate, -, hact, e, rest, hentries, hops, hten, hg⟩ := State.stream_eq_some.1 hx
  have hstate' : (u.queue q).state = (s.queue q).state := (congrArg Queue.state h.queue :)
  have hentries' : (u.queue q).entries = (s.queue q).entries := (congrArg Queue.entries h.queue :)
  exact State.stream_eq_some.2 ⟨hstate' ▸ hstate, ha, h.agenAct ▸ hact, e, rest, hentries' ▸ hentries, hops, h.tensor .. ▸ hten, hg⟩

@[simp] theorem State.active_updActive (f : Active → Active) : ((s.updActive q f).queue q).active = (s.queue q).active.map f := by
  simp [State.updActive]

@[simp] theorem State.tile_updActive (f : Active → Active) (t : TileId) : (s.updActive q f).tile t = s.tile t := rfl

/-- R271, R272: a port whose turn has not gone by performs its elements, and the turn becomes its own. -/
theorem State.portTurn_of_turn {t : TileId} (h : s.eng.portNow.1 = s.cycle → s.eng.portNow.2 ≤ t.tile) (f : State → State) :
    ∃ p, s.portTurn q t f = { f s with eng := { (f s).eng with portNow := p } } := by
  have hturn : (decide (s.eng.portNow.1 = s.cycle) && decide (t.tile < s.eng.portNow.2)) = false := by simpa using h
  simp only [State.portTurn, hturn, Bool.false_eq_true, if_false]
  split
  · exact ⟨_, rfl⟩
  · exact ⟨_, rfl⟩

end

end Sys2Proof.Machine

/-! SUPPORT. Operand slots (R195, R200, R219): what a fill changes of the slots that it names. -/
namespace Sys2Proof.Machine

theorem Tile.opSlot_updSlot (x : Tile) (j : Nat) (f : OpSlot → OpSlot) {k : Nat} (hk : k < 16) :
    (x.updSlot j f).opSlot k = if k = j then f (x.opSlot k) else x.opSlot k := by
  simp [Tile.updSlot, Tile.opSlot, hk]

/-- The slots `ks` of a tile changed in turn, each by its own `f`. -/
def State.updSlots (s : State) (m : TileId) (ks : List Nat) (f : Nat → OpSlot → OpSlot) : State :=
  ks.foldl (fun s k => s.updTile m (·.updSlot k (f k))) s

section
variable {s : State} {m : TileId} {f : Nat → OpSlot → OpSlot}

theorem State.opSlot_updSlots {ks : List Nat} (hks : ks.Nodup) {k : Nat} (hk : k < 16) :
    ((s.updSlots m ks f).tile m).opSlot k = if k ∈ ks then f k ((s.tile m).opSlot k) else (s.tile m).opSlot k := by
  induction ks generalizing s with
  | nil => rfl
  | cons j ks ih =>
    obtain ⟨hj, hks⟩ := List.nodup_cons.1 hks
    have hrest := ih (s := s.updTile m (·.updSlot j (f j))) hks
    simp only [State.tile_updTile, if_true, Tile.opSlot_updSlot _ _ _ hk] at hrest
    show ((State.updSlots _ m ks f).tile m).opSlot k = _
    by_cases hkj : k = j
    · subst hkj
      simp [hrest, hj]
    · simp [hrest, hkj]

@[simp] theorem State.queue_updSlots (ks : List Nat) (q : QueueId) : (s.updSlots m ks f).queue q = s.queue q := by
  induction ks generalizing s with
  | nil => rfl
  | cons j ks ih => exact ih

theorem SlotStep.updSlot {q : QueueId} {u : State} (h : SlotStep q s u) (m : TileId) (k : Nat) (f : OpSlot → OpSlot) :
    SlotStep q s (u.updTile m (·.updSlot k f)) := h.updTile m fun _ => rfl

theorem SlotStep.updSlots {q : QueueId} {u : State} (h : SlotStep q s u) (m : TileId) (ks : List Nat) (f : Nat → OpSlot → OpSlot) :
    SlotStep q s (u.updSlots m ks f) := by
  induction ks generalizing u with
  | nil => exact h
  | cons j ks ih => exact ih (h.updSlot m j (f j))

/-- R219: a fill names one slot, or two in a row. -/
theorem opmSlots_nodup (x : Stream) : (opmSlots x).1.Nodup := by
  unfold opmSlots
  simp only []
  split
  · simp
  · simp

/-! ## The end of a fill -/

/-- R219: scale fields that are all zero. -/
def OpSlot.unscaled (z : OpSlot) : OpSlot := { z with sb := [0, 0, 0, 0] }

theorem fillScales_of_unscaled {x : Stream} (hsc : cmdSC x.cmd = false) : fillScales s x m =
    (s.updSlots m (opmSlots x).1 fun _ => OpSlot.unscaled).updActive x.g.q fun a => { a with finished := true, withheld := none } := by
  simp only [fillScales, hsc]
  rfl

/-- R427: granules that lose their poison change nothing else of their slot. -/
theorem cleanSlots_poison (s : State) (x : Stream) (m : TileId) : ∃ f : Nat → OpSlot → OpSlot,
    (∀ k z, f k z = { z with poison := (f k z).poison }) ∧ cleanSlots x m s = s.updSlots m (opmSlots x).1 f := by
  refine ⟨_, ?_, rfl⟩
  intro k z
  split
  · rfl
  · rfl

/-- R219: the last step of a fill, once every element is copied. -/
def State.endFill (s : State) (x : Stream) (m : TileId) : State := cleanSlots x m (fillScales s x m)

section
variable {x : Stream} (hsc : cmdSC x.cmd = false)
include hsc

theorem State.endFill_eq (s : State) (m : TileId) : ∃ f : Nat → OpSlot → OpSlot,
    (∀ k z, f k z = { z with poison := (f k z).poison }) ∧
      s.endFill x m = ((s.updSlots m (opmSlots x).1 fun _ => OpSlot.unscaled).updActive x.g.q
        fun a => { a with finished := true, withheld := none }).updSlots m (opmSlots x).1 f := by
  obtain ⟨f, hf, hclean⟩ := cleanSlots_poison (fillScales s x m) x m
  exact ⟨f, hf, by rw [State.endFill, hclean, fillScales_of_unscaled hsc]⟩

theorem SlotStep.endFill {u : State} (h : SlotStep x.g.q s u) (m : TileId) : SlotStep x.g.q s (u.endFill x m) := by
  obtain ⟨f, -, hend⟩ := State.endFill_eq hsc u m
  rw [hend]
  exact ((h.updSlots m _ _).updActive _).updSlots m _ f

theorem State.active_endFill (s : State) (m : TileId) : ((s.endFill x m).queue x.g.q).active =
    (s.queue x.g.q).active.map fun a => { a with finished := true, withheld := none } := by
  obtain ⟨f, -, hend⟩ := State.endFill_eq hsc s m
  simp [hend]

theorem State.opSlot_endFill (s : State) (m : TileId) {k : Nat} (hk : k < 16) (hmem : k ∈ (opmSlots x).1) :
    ∃ p, ((s.endFill x m).tile m).opSlot k = { ((s.tile m).opSlot k).unscaled with poison := p } := by
  obtain ⟨f, hf, hend⟩ := State.endFill_eq hsc s m
  rw [hend, State.opSlot_updSlots (opmSlots_nodup x) hk, State.tile_updActive, State.opSlot_updSlots (opmSlots_nodup x) hk,
    if_pos hmem, if_pos hmem, hf]
  exact ⟨_, rfl⟩

end

/-! ## One element of a fill -/

/-- R204: a command past one element. -/
def Active.past (a : Active) : Active := { a with pos := a.pos + 1, withheld := none }

/-- A stream whose command is past one element. -/
def Stream.past (x : Stream) : Stream := { x with a := x.a.past }

/-- R195, R219: the element `v` that a fill has come to, of `n` bytes at `va`, recorded as read and stored as its code at its place. -/
def State.fillElem (s : State) (q : QueueId) (x : Stream) (m : TileId) (va : Dbl) (n v : Nat) : State :=
  let p := opmPlace ((opmSlots x).1.headD 0) (opmSlots x).2 x.a.pos
  let u := (s.recordAccess x.g false x.ten.space va n).updTile m
    (·.updSlot p.1 fun z => { z with bytes := z.bytes.writeN p.2.1 p.2.2 (opmCode x v).1 })
  (if (opmCode x v).2 then u.count x.g.e.ctx 0x41 1 else u).updActive q Active.past

theorem fillElems_last {q : QueueId} {x : Stream} {s1 : State} {va : Dbl} {ps : List Place} (hstream : s.stream q [0x05] = some x)
    (hpos : x.a.pos < cmdCnt x.cmd) (hat : locateElems x.g x.ten false [cmdStart x.cmd + x.a.pos] s = .all [.at va ps] s1) :
    fillElems q m 1 s = s1.fillElem q x m va ps.length (s1.readPlaces ps) := by
  simp only [fillElems, hstream, hat, Nat.not_le.2 hpos, if_false]
  rfl

section
variable {q : QueueId} {x : Stream} {va : Dbl} {n v : Nat}

theorem SlotStep.fillElem {u : State} (h : SlotStep q s u) (x : Stream) (m : TileId) (va : Dbl) (n v : Nat) :
    SlotStep q s (u.fillElem q x m va n v) := by
  have hread := h.recordAccess x.g false x.ten.space va n
  refine SlotStep.updActive ?_ _
  split
  · exact (hread.updSlot m _ _).count ..
  · exact hread.updSlot m _ _

theorem State.active_fillElem (s : State) (m : TileId) : ((s.fillElem q x m va n v).queue q).active =
    (s.queue q).active.map Active.past := by
  simp only [State.fillElem, State.active_updActive]
  split
  · rfl
  · rfl

/-- A fill past one element is the same stream, past that element. -/
theorem State.stream_fillElem {s1 : State} (hreach : Reaches s s1) (hstream : s.stream q [0x05] = some x) (m : TileId) (va : Dbl)
    (n v : Nat) : (s1.fillElem q x m va n v).stream q [0x05] = some x.past := by
  have hactive := State.active_fillElem (q := q) (x := x) (va := va) (n := n) (v := v) s1 m
  rw [hreach.queue, (State.stream_eq_some.1 hstream).2.1] at hactive
  exact ((SlotStep.of_reaches q hreach).fillElem x m va n v).stream hstream hactive

theorem State.opSlot_fillElem (s : State) (m : TileId) {k off b : Nat} (hk : k < 16)
    (hplace : opmPlace ((opmSlots x).1.headD 0) (opmSlots x).2 x.a.pos = (k, off, b)) :
    ((s.fillElem q x m va n v).tile m).opSlot k =
      { (s.tile m).opSlot k with bytes := ((s.tile m).opSlot k).bytes.writeN off b (opmCode x v).1 } := by
  have htile : (s.recordAccess x.g false x.ten.space va n).tile m = s.tile m := rfl
  simp only [State.fillElem, State.tile_updActive, hplace]
  split
  · simp [Tile.opSlot_updSlot _ _ _ hk, htile]
  · simp [Tile.opSlot_updSlot _ _ _ hk, htile]

end

/-! ## A fill that goes on -/

section
variable {q : QueueId} {x : Stream} (hstream : s.stream q [0x05] = some x)
include hstream

/-- R219, R272: RD.OPM in its port's turn goes on with a fill that has begun. -/
theorem exec_rdOpm_of_begun (hturn : s.eng.portNow.1 = s.cycle → s.eng.portNow.2 ≤ x.t.tile) :
    ∃ p, exec (.rdOpm q) s = .next { s.stepFill q with eng := { (s.stepFill q).eng with portNow := p } } := by
  obtain ⟨-, hactive, hact, -⟩ := State.stream_eq_some.1 hstream
  obtain ⟨p, hport⟩ := State.portTurn_of_turn (q := q) hturn (·.fillToken q)
  have htoken : s.fillToken q = s.stepFill q := by simp [State.fillToken, hactive]
  refine ⟨p, ?_⟩
  show execRdOpm q s = _
  rw [execRdOpm, State.fillHome_of_agenAct hact]
  simp only [hport, htoken]

variable (htarget : opmTarget (s.act x.id).region x.cmd = some m)
  (hheld : ∀ i ∈ (opmSlots x).1, ∃ o, ((s.tile m).opSlot i).owner = some o ∧ (s.act o).ctx = x.g.e.ctx)
  (hopen : x.a.finished = false) (htick : s.ticks x.t = true) (htick' : s.ticks m = true)
include htarget hheld hopen htick htick'

/-- R219: a fill whose act's context holds the slots, in a cycle of its clocks, ends once it has copied its last element. -/
theorem State.stepFill_of_ended {y : Stream} (hend : (fillElems q m (cmdCnt x.cmd - x.a.pos) s).stream q [0x05] = some y)
    (hall : cmdCnt y.cmd ≤ y.a.pos) : s.stepFill q = (fillElems q m (cmdCnt x.cmd - x.a.pos) s).endFill y m := by
  simp only [State.stepFill, hstream, htarget]
  split
  · rename_i k hfind
    obtain ⟨o, howner, hctx⟩ := hheld k (List.mem_of_find?_eq_some hfind)
    have hfree := List.find?_some hfind
    simp [howner, hctx] at hfree
  · simp only [hopen, htick, htick', hend, hall, Bool.and_self, Bool.not_true, Bool.or_self, Bool.false_eq_true, if_false, if_true]
    rfl

/-- R219: a fill that has come to its last element copies it and ends. -/
theorem State.stepFill_of_last {s1 : State} {va : Dbl} {ps : List Place} (hlast : x.a.pos + 1 = cmdCnt x.cmd)
    (hat : locateElems x.g x.ten false [cmdStart x.cmd + x.a.pos] s = .all [.at va ps] s1) :
    s.stepFill q = (s1.fillElem q x m va ps.length (s.readPlaces ps)).endFill x.past m := by
  have hreach := Reaches.of_locateElems hat
  have hcopy : fillElems q m (cmdCnt x.cmd - x.a.pos) s = s1.fillElem q x m va ps.length (s.readPlaces ps) := by
    rw [← hreach.readPlaces ps, ← hlast, Nat.add_sub_cancel_left]
    exact fillElems_last hstream (by omega) hat
  have hnext := State.stream_fillElem hreach hstream m va ps.length (s.readPlaces ps)
  rw [← hcopy] at hnext ⊢
  exact State.stepFill_of_ended hstream htarget hheld hopen htick htick' hnext (Nat.le_of_eq hlast.symm)

end

end

end Sys2Proof.Machine

namespace Sys2Proof.Claims
open Sys2Proof Machine

/-- Settles O36: the last element of a fill is copied by `fillElem`, which leaves the stream in place, so that the same step ends the
fill. -/
theorem operandFill : Obligations.OperandFill := by
  intro s s1 q x m va ps j v k off n hstream hq hopen htarget hheld hlast hsc hj hturn htick htick' hat hv hplace hk hmem
  subst hj hv hq
  have hreach := Reaches.of_locateElems hat
  obtain ⟨p, hexec⟩ := exec_rdOpm_of_begun hstream hturn
  rw [State.stepFill_of_last hstream htarget hheld hopen htick htick' hlast hat] at hexec
  have hstep := ((SlotStep.of_reaches x.g.q hreach).fillElem x m va ps.length (s.readPlaces ps)).endFill (x := x.past) hsc m
  have hactive := (State.stream_eq_some.1 (State.stream_fillElem hreach hstream m va ps.length (s.readPlaces ps))).2.1
  obtain ⟨poison, hslot⟩ := State.opSlot_endFill (x := x.past) hsc (s1.fillElem _ x m va ps.length (s.readPlaces ps)) m hk hmem
  rw [State.opSlot_fillElem s1 m hk hplace, hreach.tile] at hslot
  have hended := (State.active_endFill (x := x.past) hsc _ m).trans (congrArg _ hactive)
  exact ⟨_, _, hexec, hstep.mem, hended, rfl, (congrArg OpSlot.bytes hslot :), (congrArg OpSlot.sb hslot :),
    (congrArg OpSlot.owner hslot :)⟩

end Sys2Proof.Claims
